-- ==== Sys2Proof/Word.lean ====
section
/-! DEFINITION. The word types of the core: 16-bit data and addresses (R6), 8-bit bytes and opcodes (R6). -/

namespace Sys2Proof

/-- A 16-bit register, operand specifier or address (R6). All its arithmetic wraps modulo 65536 (R9, R40). -/
abbrev Word := BitVec 16

/-- The addressable unit, and the width of an opcode (R6). -/
abbrev Byte := BitVec 8

end Sys2Proof
end

