-- ==== Sys2Proof/Syntax.lean ====
section
/-! DEFINITION. The instruction set as syntax: the two registers a register field selects, the eight addressing modes,
the 39 base operations and the instructions, one constructor per row of spec/opcode_table.json. -/

namespace Sys2Proof

/-- What a register field selects: 0 the accumulator, 1 the index register (R12, R61). -/
inductive Reg where
  | a
  | x
  deriving DecidableEq, Repr

/-- The eight AddrMode variants, in the order of the document's enumeration (R64). -/
inductive AddrMode where
  | immediate
  | direct
  | indirect
  | stackRelative
  | stackRelativeDeferred
  | indexed
  | stackIndexed
  | stackIndexedDeferred
  deriving DecidableEq, Repr

/-- The 1-bit mode field of branches and call: 0 the absolute target, 1 the target indexed by X (R62, R64). -/
inductive BranchMode where
  | immediate
  | indexed
  deriving DecidableEq, Repr

/-- The 39 base operations (R66), named by the table's mnemonics; what the OPCODE_MAP assigns to an opcode value. -/
inductive BaseOp where
  | stop | rettr | movspa | movflga
  | br | brle | brlt | breq | brne | brge | brgt | brv | brc | call
  | notr | negr | aslr | asrr | rolr | rorr
  | nopn | nop | deci | deco | stro | chari | charo | retn | addsp | subsp
  | addr | subr | andr | orr | cpr | ldr | ldbyter | str | stbyter
  deriving DecidableEq, Repr

/-- An instruction: a base operation with the fields of its opcode and, in format S, its specifier (R60 to R66). -/
inductive Instr where
  /-- halt, R150 -/
  | stop
  /-- unsupported-return, R160 -/
  | rettr
  /-- stack pointer move to accumulator, R180 -/
  | movspa
  /-- flags-to-accumulator, R181 -/
  | movflga
  /-- unconditional branch, R151 -/
  | br (mode : BranchMode) (spec : Word)
  /-- branch on less-or-equal, R152 -/
  | brle (mode : BranchMode) (spec : Word)
  /-- branch on less-than, R153 -/
  | brlt (mode : BranchMode) (spec : Word)
  /-- branch on equal, R154 -/
  | breq (mode : BranchMode) (spec : Word)
  /-- branch on not-equal, R155 -/
  | brne (mode : BranchMode) (spec : Word)
  /-- branch on greater-or-equal, R156 -/
  | brge (mode : BranchMode) (spec : Word)
  /-- branch on greater-than, R157 -/
  | brgt (mode : BranchMode) (spec : Word)
  /-- overflow-branch, R158 -/
  | brv (mode : BranchMode) (spec : Word)
  /-- carry-branch, R159 -/
  | brc (mode : BranchMode) (spec : Word)
  /-- call, R161 -/
  | call (mode : BranchMode) (spec : Word)
  /-- complement, R182 -/
  | notr (r : Reg)
  /-- negate, R183 -/
  | negr (r : Reg)
  /-- arithmetic shift left, R184 -/
  | aslr (r : Reg)
  /-- arithmetic shift right, R185 -/
  | asrr (r : Reg)
  /-- rotate left, R186 -/
  | rolr (r : Reg)
  /-- rotate right, R187 -/
  | rorr (r : Reg)
  /-- bare no-operand form, R163; the two low opcode bits are kept and ignored -/
  | nopn (nn : BitVec 2)
  /-- extended no-op, R164 -/
  | nop (mode : AddrMode) (spec : Word)
  /-- decimal input, R245 -/
  | deci (mode : AddrMode) (spec : Word)
  /-- decimal output, R246 -/
  | deco (mode : AddrMode) (spec : Word)
  /-- string output, R247 -/
  | stro (mode : AddrMode) (spec : Word)
  /-- character input, R250 -/
  | chari (mode : AddrMode) (spec : Word)
  /-- character output, R252 -/
  | charo (mode : AddrMode) (spec : Word)
  /-- return, eight forms, R162 -/
  | retn (count : BitVec 3)
  /-- stack adjust: add to SP, R225 -/
  | addsp (mode : AddrMode) (spec : Word)
  /-- stack adjust: subtract from SP, R226 -/
  | subsp (mode : AddrMode) (spec : Word)
  /-- add, R220 -/
  | addr (r : Reg) (mode : AddrMode) (spec : Word)
  /-- subtract, R221 -/
  | subr (r : Reg) (mode : AddrMode) (spec : Word)
  /-- bitwise and, R222 -/
  | andr (r : Reg) (mode : AddrMode) (spec : Word)
  /-- bitwise or, R223 -/
  | orr (r : Reg) (mode : AddrMode) (spec : Word)
  /-- compare, R224 -/
  | cpr (r : Reg) (mode : AddrMode) (spec : Word)
  /-- load, R200 -/
  | ldr (r : Reg) (mode : AddrMode) (spec : Word)
  /-- load-byte, R201 -/
  | ldbyter (r : Reg) (mode : AddrMode) (spec : Word)
  /-- store, R202 -/
  | str (r : Reg) (mode : AddrMode) (spec : Word)
  /-- store-byte, R203 -/
  | stbyter (r : Reg) (mode : AddrMode) (spec : Word)
  deriving DecidableEq, Repr

/-- The base operation an instruction belongs to. -/
def Instr.base : Instr → BaseOp
  | .stop => .stop
  | .rettr => .rettr
  | .movspa => .movspa
  | .movflga => .movflga
  | .br _ _ => .br
  | .brle _ _ => .brle
  | .brlt _ _ => .brlt
  | .breq _ _ => .breq
  | .brne _ _ => .brne
  | .brge _ _ => .brge
  | .brgt _ _ => .brgt
  | .brv _ _ => .brv
  | .brc _ _ => .brc
  | .call _ _ => .call
  | .notr _ => .notr
  | .negr _ => .negr
  | .aslr _ => .aslr
  | .asrr _ => .asrr
  | .rolr _ => .rolr
  | .rorr _ => .rorr
  | .nopn _ => .nopn
  | .nop _ _ => .nop
  | .deci _ _ => .deci
  | .deco _ _ => .deco
  | .stro _ _ => .stro
  | .chari _ _ => .chari
  | .charo _ _ => .charo
  | .retn _ => .retn
  | .addsp _ _ => .addsp
  | .subsp _ _ => .subsp
  | .addr _ _ _ => .addr
  | .subr _ _ _ => .subr
  | .andr _ _ _ => .andr
  | .orr _ _ _ => .orr
  | .cpr _ _ _ => .cpr
  | .ldr _ _ _ => .ldr
  | .ldbyter _ _ _ => .ldbyter
  | .str _ _ _ => .str
  | .stbyter _ _ _ => .stbyter

end Sys2Proof
end

