-- ==== Sys2Proof/Config.lean ====
section
/-! DEFINITION. What is fixed for one machine: the two configuration inputs of the document (R7, R19), the parameters of
R8, and the free value of the one result the spec leaves open (R181 under MOVFLGA_UPPER = any). -/

namespace Sys2Proof

/-- OPCODE_MAP (R8, R66): the base operation of each opcode value, entry `k` that of opcode `k`. The fields of an opcode
stand at the bit positions R61 to R63 fix for its family, so the map need not list them. A map with fewer than 256
entries is not total; the opcodes it leaves out raise InternalError (R73). -/
abbrev OpcodeMap := List BaseOp

/-- MODE_CODE (R8, R64): the addressing mode each value of the 3-bit mode field selects. -/
structure ModeCode where
  code0 : AddrMode
  code1 : AddrMode
  code2 : AddrMode
  code3 : AddrMode
  code4 : AddrMode
  code5 : AddrMode
  code6 : AddrMode
  code7 : AddrMode
  deriving DecidableEq, Repr

/-- RET_SP_DIRECTION (R8, R162): whether return subtracts from SP (the document's formula) or adds to it. -/
inductive RetSpDirection where
  | sub
  | add
  deriving DecidableEq, Repr

/-- MOVFLGA_UPPER (R8, R181): what bits 15:4 of A become under flags-to-accumulator. -/
inductive MovflgaUpper where
  | preserve
  | clear
  | any
  deriving DecidableEq, Repr

/-- The configuration of one machine, constant while it runs (R7, R8, R19). -/
structure Config where
  /-- OPCODE_MAP, R66 -/
  opcodeMap : OpcodeMap
  /-- MODE_CODE, R64 -/
  modeCode : ModeCode
  /-- LOAD_SETS_NZ, R200, R201 -/
  loadSetsNZ : Bool
  /-- SHIFT_SETS_NZ, R184, R185 -/
  shiftSetsNZ : Bool
  /-- RET_SP_DIRECTION, R162 -/
  retSpDirection : RetSpDirection
  /-- MOVFLGA_UPPER, R181 -/
  movflgaUpper : MovflgaUpper
  /-- `continueOnInputExhaustion`, R7, R244, R251 -/
  continueOnInputExhaustion : Bool
  /-- `traceEnabled`, R7, R288 -/
  traceEnabled : Bool
  deriving DecidableEq, Repr

/-- FREE VALUE (R181, MOVFLGA_UPPER = any; item I6 'any value'): the 12 bits drawn for `A[15:4]`, one for each index of
`State.freeIndex`. It has no body: no proof can tell what it is. DESIGN CHOICE, log 5; safe. -/
opaque Config.freeUpper : Nat → BitVec 12

end Sys2Proof
end

