-- ==== Sys2Proof/Machine/Bytes.lean ====
section
/-! DEFINITION. Bit fields and byte order: the high and low byte of a word and the word of two bytes (R42, R44, R45). -/

namespace Sys2Proof

/-- `w[15:8]` (R9). -/
def hiByte (w : Word) : Byte := w.extractLsb' 8 8

/-- `w[7:0]` (R9). -/
def loByte (w : Word) : Byte := w.extractLsb' 0 8

/-- The word `{hi, lo}` (R9), `hi` in bits 15:8. -/
def joinBytes (hi lo : Byte) : Word := hi ++ lo

/-- `zext_16(b)` (R9). -/
def zeroExtend (b : Byte) : Word := b.setWidth 16

end Sys2Proof
end

