-- ==== Sys2Proof/Decode.lean ====
section
/-! DEFINITION. The opcode decoder (R60 to R76): the default OPCODE_MAP and MODE_CODE, the fields of an opcode, `decode`
from bytes to an instruction, total and rejecting by name, and after it the encoder of the default configuration. -/

namespace Sys2Proof

/-! ### The contract's attributes of a base operation (R68) -/

/-- `requiresSpec` (R65, R68): true for format S. -/
def BaseOp.requiresSpec : BaseOp → Bool
  | .stop | .rettr | .movspa | .movflga => false
  | .notr | .negr | .aslr | .asrr | .rolr | .rorr => false
  | .nopn | .retn => false
  | .br | .brle | .brlt | .breq | .brne | .brge | .brgt | .brv | .brc | .call => true
  | .nop | .deci | .deco | .stro | .chari | .charo | .addsp | .subsp => true
  | .addr | .subr | .andr | .orr | .cpr | .ldr | .ldbyter | .str | .stbyter => true

/-- `hasRegisterField` (R61, R68): the six unary and the nine binary operations. -/
def BaseOp.hasRegisterField : BaseOp → Bool
  | .notr | .negr | .aslr | .asrr | .rolr | .rorr => true
  | .addr | .subr | .andr | .orr | .cpr | .ldr | .ldbyter | .str | .stbyter => true
  | .stop | .rettr | .movspa | .movflga | .nopn | .retn => false
  | .br | .brle | .brlt | .breq | .brne | .brge | .brgt | .brv | .brc | .call => false
  | .nop | .deci | .deco | .stro | .chari | .charo | .addsp | .subsp => false

/-- `hasAddressField` (R62, R68): a 1-bit or 3-bit mode field. -/
def BaseOp.hasAddressField : BaseOp → Bool
  | .br | .brle | .brlt | .breq | .brne | .brge | .brgt | .brv | .brc | .call => true
  | .nop | .deci | .deco | .stro | .chari | .charo | .addsp | .subsp => true
  | .addr | .subr | .andr | .orr | .cpr | .ldr | .ldbyter | .str | .stbyter => true
  | .stop | .rettr | .movspa | .movflga | .nopn | .retn => false
  | .notr | .negr | .aslr | .asrr | .rolr | .rorr => false

/-- How many low bits of the opcode the fields of a base operation take (R61 to R63, R65): its family has two to this
power opcode values. -/
def BaseOp.fieldBits : BaseOp → Nat
  | .stop | .rettr | .movspa | .movflga => 0
  | .br | .brle | .brlt | .breq | .brne | .brge | .brgt | .brv | .brc | .call => 1
  | .notr | .negr | .aslr | .asrr | .rolr | .rorr => 1
  | .nopn => 2
  | .nop | .deci | .deco | .stro | .chari | .charo | .retn | .addsp | .subsp => 3
  | .addr | .subr | .andr | .orr | .cpr | .ldr | .ldbyter | .str | .stbyter => 4

/-! ### The default configuration -/

/-- The base operations in the order of their opcode ranges (R66). -/
def opcodeOrder : List BaseOp :=
  [.stop, .rettr, .movspa, .movflga,
    .br, .brle, .brlt, .breq, .brne, .brge, .brgt, .brv, .brc, .call,
    .notr, .negr, .aslr, .asrr, .rolr, .rorr,
    .nopn, .nop, .deci, .deco, .stro, .chari, .charo, .retn, .addsp, .subsp,
    .addr, .subr, .andr, .orr, .cpr, .ldr, .ldbyter, .str, .stbyter]

/-- The default OPCODE_MAP (R66): the families follow each other from 0x00 to 0xFF in that order, each with one opcode for
every value of its fields. PRESUMED (general knowledge, D1), log 1. -/
def defaultOpcodeMap : OpcodeMap :=
  opcodeOrder.flatMap fun b => List.replicate (2 ^ b.fieldBits) b

/-- The default MODE_CODE: the document's enumeration order (R64, D2), log 2. -/
def defaultModeCode : ModeCode where
  code0 := .immediate
  code1 := .direct
  code2 := .indirect
  code3 := .stackRelative
  code4 := .stackRelativeDeferred
  code5 := .indexed
  code6 := .stackIndexed
  code7 := .stackIndexedDeferred

/-- The defaults of R7 and R8; MOVFLGA_UPPER, which R8 leaves OPEN, at its recommended value `any` (D6). -/
def Config.default : Config where
  opcodeMap := defaultOpcodeMap
  modeCode := defaultModeCode
  loadSetsNZ := false
  shiftSetsNZ := false
  retSpDirection := .sub
  movflgaUpper := .any
  continueOnInputExhaustion := false
  traceEnabled := false

/-- No number of the list occurs twice or in the set `seen`, held as the bits of a number. -/
def noneRepeated : List Nat → Nat → Bool
  | [], _ => true
  | k :: rest, seen => !seen.testBit k && noneRepeated rest (seen ||| 1 <<< k)

/-- What R8 asks of an OPCODE_MAP: all 256 opcode values have a base operation, and no two of them have the same base
operation and the same field bits (R61 to R65). -/
def OpcodeMap.obeysFields (m : OpcodeMap) : Bool :=
  m.length == 256 && noneRepeated (m.zipIdx.map fun e => 16 * e.1.ctorIdx + e.2 % 2 ^ e.1.fieldBits) 0

/-- What R8 asks of a MODE_CODE: a bijection from 0..7 to the eight modes. -/
def ModeCode.bijective (t : ModeCode) : Bool :=
  decide [t.code0, t.code1, t.code2, t.code3, t.code4, t.code5, t.code6, t.code7].Nodup

/-! ### The fields of an opcode -/

/-- The mode the 3-bit field value `k` selects (R62, R64). -/
def ModeCode.variant (t : ModeCode) (k : BitVec 3) : AddrMode :=
  match k.toNat with
  | 0 => t.code0
  | 1 => t.code1
  | 2 => t.code2
  | 3 => t.code3
  | 4 => t.code4
  | 5 => t.code5
  | 6 => t.code6
  | _ => t.code7

/-- Register field value 0 is A, 1 is X (R12). -/
def Reg.ofBit (b : Bool) : Reg := if b then .x else .a

/-- The register field of a unary operation, opcode bit 0 (R61). -/
def unaryReg (op : Byte) : Reg := Reg.ofBit (op.getLsbD 0)

/-- The register field of a binary operation, opcode bit 3 (R61). -/
def binaryReg (op : Byte) : Reg := Reg.ofBit (op.getLsbD 3)

/-- The 1-bit mode field of branches and call, opcode bit 0 (R62, R64). -/
def branchMode (op : Byte) : BranchMode := if op.getLsbD 0 then .indexed else .immediate

/-- The 3-bit mode field, opcode bits 2:0 (R62, R64). -/
def modeField (cfg : Config) (op : Byte) : AddrMode := cfg.modeCode.variant (op.extractLsb' 0 3)

/-- The count of a return form, opcode bits 2:0 (R63). -/
def countField (op : Byte) : BitVec 3 := op.extractLsb' 0 3

/-- The ignored bits of a bare no-op, opcode bits 1:0 (R63). -/
def bareField (op : Byte) : BitVec 2 := op.extractLsb' 0 2

/-- The instruction of base operation `b` with the fields of `op` (R61 to R64) and specifier `spec`, which a format U
operation does not use. -/
def assemble (cfg : Config) (b : BaseOp) (op : Byte) (spec : Word) : Instr :=
  match b with
  | .stop => .stop
  | .rettr => .rettr
  | .movspa => .movspa
  | .movflga => .movflga
  | .br => .br (branchMode op) spec
  | .brle => .brle (branchMode op) spec
  | .brlt => .brlt (branchMode op) spec
  | .breq => .breq (branchMode op) spec
  | .brne => .brne (branchMode op) spec
  | .brge => .brge (branchMode op) spec
  | .brgt => .brgt (branchMode op) spec
  | .brv => .brv (branchMode op) spec
  | .brc => .brc (branchMode op) spec
  | .call => .call (branchMode op) spec
  | .notr => .notr (unaryReg op)
  | .negr => .negr (unaryReg op)
  | .aslr => .aslr (unaryReg op)
  | .asrr => .asrr (unaryReg op)
  | .rolr => .rolr (unaryReg op)
  | .rorr => .rorr (unaryReg op)
  | .nopn => .nopn (bareField op)
  | .nop => .nop (modeField cfg op) spec
  | .deci => .deci (modeField cfg op) spec
  | .deco => .deco (modeField cfg op) spec
  | .stro => .stro (modeField cfg op) spec
  | .chari => .chari (modeField cfg op) spec
  | .charo => .charo (modeField cfg op) spec
  | .retn => .retn (countField op)
  | .addsp => .addsp (modeField cfg op) spec
  | .subsp => .subsp (modeField cfg op) spec
  | .addr => .addr (binaryReg op) (modeField cfg op) spec
  | .subr => .subr (binaryReg op) (modeField cfg op) spec
  | .andr => .andr (binaryReg op) (modeField cfg op) spec
  | .orr => .orr (binaryReg op) (modeField cfg op) spec
  | .cpr => .cpr (binaryReg op) (modeField cfg op) spec
  | .ldr => .ldr (binaryReg op) (modeField cfg op) spec
  | .ldbyter => .ldbyter (binaryReg op) (modeField cfg op) spec
  | .str => .str (binaryReg op) (modeField cfg op) spec
  | .stbyter => .stbyter (binaryReg op) (modeField cfg op) spec

/-! ### The decoder -/

/-- Why bytes are no instruction. An opcode with an illegal mode is not among these: its base operation is known (R68),
it decodes, and the legality verdict on it (`Instr.wellFormed`, the checks R69 to R71) makes its step raise DecodeError. -/
inductive DecodeReject where
  /-- no byte at all -/
  | noOpcode
  /-- the OPCODE_MAP gives this value no base operation (R73): never under a total map -/
  | unknownOpcode (op : Byte)
  /-- a format S opcode with fewer than two bytes after it -/
  | truncated (op : Byte)
  deriving DecidableEq, Repr

/-- The base operation of an opcode (R60, R68), `none` where the map has no entry (R73). -/
def lookupOpcode (m : OpcodeMap) (op : Byte) : Option BaseOp := m[op.toNat]?

/-- The decoder (R68, R76): the instruction that stands at the front of `bytes` and the bytes after it. The length is a
function of the opcode alone; the specifier is big-endian (R60, R75). -/
def decode (cfg : Config) (bytes : List Byte) : Except DecodeReject (Instr × List Byte) :=
  match bytes with
  | [] => .error .noOpcode
  | op :: rest =>
    match lookupOpcode cfg.opcodeMap op with
    | none => .error (.unknownOpcode op)
    | some b =>
      match b.requiresSpec, rest with
      | false, _ => .ok (assemble cfg b op 0, rest)
      | true, hi :: lo :: rest' => .ok (assemble cfg b op (joinBytes hi lo), rest')
      | true, _ => .error (.truncated op)

/-- The three bytes of an instruction word numbered from the first byte up (bits 7:0 the first byte, 15:8 the second,
23:16 the third), the bits from `nbits` up taken as 0. -/
def tableBytes (nbits w : Nat) : List Byte :=
  let v := w % 2 ^ nbits
  [BitVec.ofNat 8 v, BitVec.ofNat 8 (v / 256), BitVec.ofNat 8 (v / 65536)]

/-- What the decoder of the default configuration reads from a word of the opcode table. -/
def decodeTableWord (nbits w : Nat) : Option Instr :=
  match decode Config.default (tableBytes nbits w) with
  | .ok (i, _) => some i
  | .error _ => none

/-! ### The encoder of the default configuration -/

/-- The 3-bit code of a mode (R64). -/
def AddrMode.code : AddrMode → BitVec 3
  | .immediate => 0b000#3
  | .direct => 0b001#3
  | .indirect => 0b010#3
  | .stackRelative => 0b011#3
  | .stackRelativeDeferred => 0b100#3
  | .indexed => 0b101#3
  | .stackIndexed => 0b110#3
  | .stackIndexedDeferred => 0b111#3

/-- The 1-bit code of a branch mode (R64). -/
def BranchMode.code : BranchMode → BitVec 1
  | .immediate => 0b0#1
  | .indexed => 0b1#1

/-- The register field value of a register (R12). -/
def Reg.code : Reg → BitVec 1
  | .a => 0b0#1
  | .x => 0b1#1

/-- The opcode byte of an instruction, by the patterns of R66. -/
def Instr.opcode : Instr → Byte
  | .stop => 0b00000000#8
  | .rettr => 0b00000001#8
  | .movspa => 0b00000010#8
  | .movflga => 0b00000011#8
  | .br m _ => 0b0000010#7 ++ m.code
  | .brle m _ => 0b0000011#7 ++ m.code
  | .brlt m _ => 0b0000100#7 ++ m.code
  | .breq m _ => 0b0000101#7 ++ m.code
  | .brne m _ => 0b0000110#7 ++ m.code
  | .brge m _ => 0b0000111#7 ++ m.code
  | .brgt m _ => 0b0001000#7 ++ m.code
  | .brv m _ => 0b0001001#7 ++ m.code
  | .brc m _ => 0b0001010#7 ++ m.code
  | .call m _ => 0b0001011#7 ++ m.code
  | .notr r => 0b0001100#7 ++ r.code
  | .negr r => 0b0001101#7 ++ r.code
  | .aslr r => 0b0001110#7 ++ r.code
  | .asrr r => 0b0001111#7 ++ r.code
  | .rolr r => 0b0010000#7 ++ r.code
  | .rorr r => 0b0010001#7 ++ r.code
  | .nopn nn => 0b001001#6 ++ nn
  | .nop m _ => 0b00101#5 ++ m.code
  | .deci m _ => 0b00110#5 ++ m.code
  | .deco m _ => 0b00111#5 ++ m.code
  | .stro m _ => 0b01000#5 ++ m.code
  | .chari m _ => 0b01001#5 ++ m.code
  | .charo m _ => 0b01010#5 ++ m.code
  | .retn n => 0b01011#5 ++ n
  | .addsp m _ => 0b01100#5 ++ m.code
  | .subsp m _ => 0b01101#5 ++ m.code
  | .addr r m _ => 0b0111#4 ++ r.code ++ m.code
  | .subr r m _ => 0b1000#4 ++ r.code ++ m.code
  | .andr r m _ => 0b1001#4 ++ r.code ++ m.code
  | .orr r m _ => 0b1010#4 ++ r.code ++ m.code
  | .cpr r m _ => 0b1011#4 ++ r.code ++ m.code
  | .ldr r m _ => 0b1100#4 ++ r.code ++ m.code
  | .ldbyter r m _ => 0b1101#4 ++ r.code ++ m.code
  | .str r m _ => 0b1110#4 ++ r.code ++ m.code
  | .stbyter r m _ => 0b1111#4 ++ r.code ++ m.code

/-- The specifier of a format S instruction; `none` in format U (R60, R65). -/
def Instr.specifier : Instr → Option Word
  | .stop | .rettr | .movspa | .movflga => none
  | .notr _ | .negr _ | .aslr _ | .asrr _ | .rolr _ | .rorr _ => none
  | .nopn _ | .retn _ => none
  | .br _ s | .brle _ s | .brlt _ s | .breq _ s | .brne _ s => some s
  | .brge _ s | .brgt _ s | .brv _ s | .brc _ s | .call _ s => some s
  | .nop _ s | .deci _ s | .deco _ s | .stro _ s | .chari _ s | .charo _ s => some s
  | .addsp _ s | .subsp _ s => some s
  | .addr _ _ s | .subr _ _ s | .andr _ _ s | .orr _ _ s | .cpr _ _ s => some s
  | .ldr _ _ s | .ldbyter _ _ s | .str _ _ s | .stbyter _ _ s => some s

/-- The length of an instruction in bytes (R60, R76). -/
def Instr.length (i : Instr) : Nat := if i.base.requiresSpec then 3 else 1

/-- The bytes of an instruction under the default OPCODE_MAP and MODE_CODE (R60, R64, R66). -/
def encode (i : Instr) : List Byte :=
  match i.specifier with
  | none => [i.opcode]
  | some s => [i.opcode, hiByte s, loByte s]

end Sys2Proof
end

