-- ==== Sys2Proof/Machine/State.lean ====
section
/-! DEFINITION. Everything the spec gives the machine as plain data (10_state.md), the reasons a step can stop, and the
state after reset (R27). -/

namespace Sys2Proof.Machine

/-- The four status flags (R16). -/
structure Flags where
  /-- negative -/
  n : Bool
  /-- zero -/
  z : Bool
  /-- signed overflow -/
  v : Bool
  /-- unsigned carry -/
  c : Bool
  deriving DecidableEq, Repr

/-- The run state RUN (R17). -/
inductive RunState where
  | running
  | halted
  deriving DecidableEq, Repr

/-- The error kind ERR (R18, R270, R271), in the order of R271's display numbers. -/
inductive ErrKind where
  | none
  | decodeError
  | inputFormatError
  | inputExhausted
  | unsupportedInstruction
  | internalError
  deriving DecidableEq, Repr

/-- The mnemonic the trace renders (R288): base operation, optional register letter, optional addressing-mode suffix, as
data; its spelling and layout are not in the source (D23, log 14). -/
structure TraceMnemonic where
  base : BaseOp
  reg : Option Reg
  mode : Option AddrMode
  deriving DecidableEq, Repr

/-- One line of the trace: the fields R288 lists, each with its value after the instruction's effect. -/
structure TraceLine where
  pc : Word
  sp : Word
  a : Word
  x : Word
  spec : Word
  flags : Flags
  opcode : Byte
  mnemonic : TraceMnemonic
  deriving DecidableEq, Repr

/-- Memory (R21, R40): the bytes that differ from what an unlisted address reads as, by strictly rising address. -/
abbrev Memory := List Host.Cell

/-- The machine state: every piece of state of 10_state.md, the streams of R23, the trace port of R30, the configuration of
R7 and R8, and the model's own counter of free values. -/
structure State where
  /-- accumulator A, R10 -/
  a : Word
  /-- index register X, R11 -/
  x : Word
  /-- program counter PC, R14 -/
  pc : Word
  /-- stack pointer SP, R13 -/
  sp : Word
  /-- instruction register IR, R15 -/
  ir : Byte
  /-- N, Z, V, C, R16 -/
  flags : Flags
  /-- RUN, R17 -/
  run : RunState
  /-- ERR, R18 -/
  err : ErrKind
  /-- decode scratch Spec, R20 -/
  spec : Word
  /-- decode scratch Mode, R20; `none` is the spec's own 'none' -/
  mode : Option AddrMode
  /-- decode scratch Operand, R20 -/
  operand : Word
  /-- the 65536 bytes, R21 -/
  mem : Memory
  /-- In: the bytes not yet consumed, R23, R240 -/
  input : List Byte
  /-- Out: the bytes written so far, oldest first, R23, R241 -/
  output : List Byte
  /-- the lines emitted on the trace port, oldest first, R30, R288; not part of Out -/
  trace : List TraceLine
  /-- the configuration, constant, R7, R8, R19 -/
  cfg : Config
  /-- the MODEL's own: how many free values have been drawn (`Config.freeUpper`), log 5 -/
  freeIndex : Nat
  deriving DecidableEq, Repr

/-- Why a step has no next state. -/
inductive Fault where
  /-- STRO with no zero byte in the whole of memory: the instruction writes for ever and the step never completes (R248,
  D14, item I12 'stuck'). Raised by STRO alone. Safe: the hardware has no next state there either. Log 8. -/
  | stringOutputNeverEnds
  deriving DecidableEq, Repr

/-- Why the model gives no meaning. -/
inductive Refusal where
  /-- An instruction whose arm of `exec` has no meaning yet. Raised by `exec` alone. Safe. -/
  | notModelled (mnemonic : String)
  /-- A reset with a program image of more than 65536 bytes, which the spec places outside the model (R302, D18, item
  I14 'refuse'). Raised by `resetWith` alone, never by an instruction. Safe. Log 10. -/
  | imageTooLong (length : Nat)
  deriving DecidableEq, Repr

/-- The machine right after reset (R27, R300, R301) with the empty image and the empty input stream (log 9) and the default
configuration (R7, R8). -/
def State.reset : State where
  a := 0x0000#16
  x := 0x0000#16
  pc := 0x0000#16
  sp := 0xFFFF#16
  ir := 0x00#8
  flags := { n := false, z := false, v := false, c := false }
  run := .running
  err := .none
  spec := 0x0000#16
  mode := none
  operand := 0x0000#16
  mem := []
  input := []
  output := []
  trace := []
  cfg := Config.default
  freeIndex := 0

end Sys2Proof.Machine
end

