-- ==== Sys2Proof/Machine/Ops.lean ====
section
/-! DEFINITION. The named operations over memory, registers, the streams and the run state, with the one operation that
raises an error (R276). There is no operation beside it that returns from one: the hardware has none (R280, R282). -/

namespace Sys2Proof.Machine

/-! ### Memory (20_memory.md) -/

/-- What an address that is not listed reads as: the reset content beyond the image, 0x00 (R27, R302). -/
def unlistedByte : Byte := 0x00#8

/-- The byte listed for an address, or the unlisted byte. -/
def Memory.lookup : Memory → Nat → Byte
  | [], _ => unlistedByte
  | (k, b) :: rest, n => if k = n then b else Memory.lookup rest n

/-- The memory with nothing listed for an address. -/
def Memory.erase : Memory → Nat → Memory
  | [], _ => []
  | (k, b) :: rest, n => if k = n then Memory.erase rest n else (k, b) :: Memory.erase rest n

/-- The memory with one more byte listed, at its place in the rising order. -/
def Memory.insert : Memory → Nat → Byte → Memory
  | [], n, v => [(n, v)]
  | (k, b) :: rest, n, v => if n < k then (n, v) :: (k, b) :: rest else (k, b) :: Memory.insert rest n v

/-- `MemRead(addr, 1)` (R41); a 16-bit address is already reduced modulo 65536 (R40). -/
def Memory.read (m : Memory) (addr : Word) : Byte := Memory.lookup m addr.toNat

/-- `MemWrite(addr, 1, v)` (R43). Writing the unlisted byte removes the entry. -/
def Memory.write (m : Memory) (addr : Word) (v : Byte) : Memory :=
  if v = unlistedByte then Memory.erase m addr.toNat
  else Memory.insert (Memory.erase m addr.toNat) addr.toNat v

/-- `MemRead(addr, 2)`: big-endian, the second address wraps at 0xFFFF (R42). -/
def Memory.readWord (m : Memory) (addr : Word) : Word :=
  joinBytes (Memory.read m addr) (Memory.read m (addr + 1))

/-- `MemWrite(addr, 2, v)`: the high byte at `addr`, then the low byte at `addr + 1`, which wraps (R44). -/
def Memory.writeWord (m : Memory) (addr : Word) (v : Word) : Memory :=
  Memory.write (Memory.write m addr (hiByte v)) (addr + 1) (loByte v)

/-- The canonical form: addresses strictly rising and below 65536 (R21), no entry equal to the unlisted byte. -/
def Memory.wf : Memory → Bool
  | [] => true
  | (k, b) :: rest =>
    decide (k < 65536) && b != unlistedByte && rest.all (fun c => decide (k < c.1)) && Memory.wf rest

/-- Bytes written one after the other from an address upward (R302's copy; an instruction's bytes). -/
def Memory.writeBytes (m : Memory) (addr : Word) : List Byte → Memory
  | [] => m
  | b :: rest => Memory.writeBytes (Memory.write m addr b) (addr + 1) rest

/-- `MemWrite(addr, 1, v)` on the state. -/
def State.storeByte (s : State) (addr : Word) (v : Byte) : State :=
  { s with mem := Memory.write s.mem addr v }

/-- `MemWrite(addr, 2, v)` on the state. -/
def State.storeWord (s : State) (addr v : Word) : State :=
  { s with mem := Memory.writeWord s.mem addr v }

/-! ### Registers (R10 to R16) -/

/-- `R[r]` (R9, R12). -/
def State.reg (s : State) : Reg → Word
  | .a => s.a
  | .x => s.x

/-- `R[r] <- v` (R9, R12). -/
def State.setReg (s : State) (r : Reg) (v : Word) : State :=
  match r with
  | .a => { s with a := v }
  | .x => { s with x := v }

/-- `PC <- v`. -/
def State.setPc (s : State) (v : Word) : State := { s with pc := v }

/-- `PC <- (PC + k) mod 65536` (R14, R133). -/
def State.advance (s : State) (k : Word) : State := { s with pc := s.pc + k }

/-- `SP <- v` (R13). -/
def State.setSp (s : State) (v : Word) : State := { s with sp := v }

/-- `IR <- v` (R15, R131). -/
def State.setIr (s : State) (v : Byte) : State := { s with ir := v }

/-- All four flags written. -/
def State.setFlags (s : State) (f : Flags) : State := { s with flags := f }

/-- The decode scratch written (R20, R133). -/
def State.setScratch (s : State) (spec : Word) (mode : AddrMode) (operand : Word) : State :=
  { s with spec := spec, mode := some mode, operand := operand }

/-- The status word as MOVFLGA packs it: bit 3 N, bit 2 Z, bit 1 V, bit 0 C (R24). -/
def Flags.pack (f : Flags) : BitVec 4 :=
  BitVec.ofBool f.n ++ BitVec.ofBool f.z ++ BitVec.ofBool f.v ++ BitVec.ofBool f.c

/-- Bits 15:4 of A after flags-to-accumulator (R181, MOVFLGA_UPPER); under `any` the free value of the current index. -/
def State.movflgaUpper (s : State) : BitVec 12 :=
  match s.cfg.movflgaUpper with
  | .preserve => s.a.extractLsb' 4 12
  | .clear => 0#12
  | .any => Config.freeUpper s.freeIndex

/-- A free value has been drawn: the next draw takes the next index (log 5). -/
def State.drawFree (s : State) : State := { s with freeIndex := s.freeIndex + 1 }

/-! ### The streams (R240, R241) -/

/-- `Out.put` of each byte in turn (R241). -/
def State.put (s : State) (bytes : List Byte) : State := { s with output := s.output ++ bytes }

/-- The input stream with its unread bytes replaced (R240). -/
def State.setInput (s : State) (rest : List Byte) : State := { s with input := rest }

/-- The trace with one more line (R288). -/
def State.emitLine (s : State) (l : TraceLine) : State := { s with trace := s.trace ++ [l] }

/-! ### Stopping -/

/-- `RUN <- Halted`, ERR as it is: the normal stop (R150). -/
def State.halt (s : State) : State := { s with run := .halted }

/-- `raise K(info)` (R9, R276): `RUN <- Halted`, `ERR <- K`, and nothing else is written. No state is saved and control
goes nowhere. -/
def State.raise (s : State) (k : ErrKind) : State := { s with run := .halted, err := k }

end Sys2Proof.Machine
end

