-- ==== Sys2Proof/Machine/Flags.lean ====
section
/-! DEFINITION. The Arithmetic/Flag Unit (41_alu.md): the pure functions on 16-bit values with the flags each yields, and
the writes of those flags. -/

namespace Sys2Proof.Machine

/-- Result and all four flags (R111, R113). -/
structure SumOut where
  result : Word
  flags : Flags
  deriving DecidableEq, Repr

/-- Result with V and C (R115). -/
structure LeftOut where
  result : Word
  v : Bool
  c : Bool
  deriving DecidableEq, Repr

/-- Result with C (R116, R117, R118). -/
structure CarryOut where
  result : Word
  c : Bool
  deriving DecidableEq, Repr

/-- Result with N and Z (R119, R121). -/
structure LogicOut where
  result : Word
  n : Bool
  z : Bool
  deriving DecidableEq, Repr

/-- Result with N, Z and V (R120). -/
structure NegOut where
  result : Word
  n : Bool
  z : Bool
  v : Bool
  deriving DecidableEq, Repr

/-- N of a result: bit 15 (R16). -/
def negativeBit (w : Word) : Bool := w.msb

/-- Z of a result: 1 iff it is 0x0000 (R16). -/
def zeroBit (w : Word) : Bool := decide (w = 0#16)

/-- `add16` (R111): the sum is taken unbounded; there is no carry input. -/
def add16 (lhs rhs : Word) : SumOut :=
  let sum := lhs.toNat + rhs.toNat
  let result := BitVec.ofNat 16 sum
  { result := result
    flags :=
      { n := negativeBit result
        z := zeroBit result
        v := (lhs.msb == rhs.msb) && (result.msb != lhs.msb)
        c := sum.testBit 16 } }

/-- `neg16` (R112). -/
def neg16 (v : Word) : Word := ~~~v + 1#16

/-- `sub16` (R113): addition of the negated right operand, so its flags are those of that addition (R114, D29). -/
def sub16 (lhs rhs : Word) : SumOut := add16 lhs (neg16 rhs)

/-- `asl16` (R115). -/
def asl16 (v : Word) : LeftOut :=
  let result := v <<< 1
  { result := result, v := v.msb ^^ result.msb, c := v.msb }

/-- `asr16` (R116): the sign bit is replicated. -/
def asr16 (v : Word) : CarryOut :=
  { result := (v >>> 1) ||| (v &&& 0x8000#16), c := v.getLsbD 0 }

/-- `rol16` (R117): rotation left through carry. -/
def rol16 (v : Word) (cin : Bool) : CarryOut :=
  { result := (v <<< 1) ||| (if cin then 0x0001#16 else 0#16), c := v.msb }

/-- `ror16` (R118): rotation right through carry. -/
def ror16 (v : Word) (cin : Bool) : CarryOut :=
  { result := (v >>> 1) ||| (if cin then 0x8000#16 else 0#16), c := v.getLsbD 0 }

/-- A bitwise result with its N and Z (R119, R121). -/
def logicOut (w : Word) : LogicOut := { result := w, n := negativeBit w, z := zeroBit w }

/-- `not16` (R119). -/
def not16 (v : Word) : LogicOut := logicOut (~~~v)

/-- `and16` (R121). -/
def and16 (l r : Word) : LogicOut := logicOut (l &&& r)

/-- `or16` (R121). -/
def or16 (l r : Word) : LogicOut := logicOut (l ||| r)

/-- `negop16` (R120): V is recomputed, 1 exactly when the result is 0x8000 (D28); no C. -/
def negop16 (v : Word) : NegOut :=
  let result := neg16 v
  { result := result, n := negativeBit result, z := zeroBit result, v := decide (result = 0x8000#16) }

/-! ### Writes of some of the flags; a flag that is not named keeps its value (R16) -/

/-- `N <- n; Z <- z`. -/
def State.setNZ (s : State) (n z : Bool) : State := s.setFlags { s.flags with n := n, z := z }

/-- `V <- v`. -/
def State.setV (s : State) (v : Bool) : State := s.setFlags { s.flags with v := v }

/-- `C <- c`. -/
def State.setC (s : State) (c : Bool) : State := s.setFlags { s.flags with c := c }

/-- N and Z of a value, written only under a parameter of R8 (D4). -/
def State.setNZWhen (s : State) (cond : Bool) (w : Word) : State :=
  if cond then s.setNZ (negativeBit w) (zeroBit w) else s

end Sys2Proof.Machine
end

