-- ==== Sys2Proof/Machine/Legality.lean ====
section
/-! DEFINITION. The decoder's three legality checks on the addressing mode (R69, R70, R71). -/

namespace Sys2Proof

/-- R69: the extended no-op accepts only the immediate mode. -/
def AddrMode.legalForNop : AddrMode → Bool
  | .immediate => true
  | _ => false

/-- R70: string output accepts only direct, indirect and stack-relative-deferred. -/
def AddrMode.legalForString : AddrMode → Bool
  | .direct | .indirect | .stackRelativeDeferred => true
  | _ => false

/-- R71: store, store-byte, decimal input and character input reject the immediate mode. -/
def AddrMode.legalForAddress : AddrMode → Bool
  | .immediate => false
  | _ => true

end Sys2Proof
end

