-- ==== Sys2Proof/Machine/Operands.lean ====
section
/-! DEFINITION. The Operand Resolver (40_operand_resolution.md): the eight modes under the two strategies, and phase 3 of
the cycle (R133), which writes the scratch and advances PC. -/

namespace Sys2Proof.Machine

/-- The address strategy (R93 to R99): the effective address of each mode; `none` for immediate, which has none (R92). -/
def resolveAddress (mode : AddrMode) (spec sp x : Word) (m : Memory) : Option Word :=
  match mode with
  | .immediate => none
  | .direct => some spec
  | .indirect => some (Memory.readWord m spec)
  | .stackRelative => some (spec + sp)
  | .stackRelativeDeferred => some (Memory.readWord m (sp + spec))
  | .indexed => some (spec + x)
  | .stackIndexed => some (spec + sp + x)
  | .stackIndexedDeferred => some (Memory.readWord m (sp + spec) + x)

/-- The value strategy (R92 to R99): the specifier itself for immediate, else the word at the effective address (R100). -/
def resolveValue (mode : AddrMode) (spec sp x : Word) (m : Memory) : Word :=
  match resolveAddress mode spec sp x m with
  | none => spec
  | some ea => Memory.readWord m ea

/-- The address-strategy operand of an instruction that starts in `s`: `resolve` with the SP and X of the start (R90). -/
def State.addressOf (s : State) (mode : AddrMode) (spec : Word) : Option Word :=
  resolveAddress mode spec s.sp s.x s.mem

/-- The value-strategy operand of an instruction that starts in `s` (R90). -/
def State.valueOf (s : State) (mode : AddrMode) (spec : Word) : Word :=
  resolveValue mode spec s.sp s.x s.mem

/-- The addressing mode of a branch's 1-bit field (R64, D24). -/
def branchAddrMode : BranchMode → AddrMode
  | .immediate => .immediate
  | .indexed => .indexed

/-- Phase 3 of a format U instruction (R133). -/
def State.enterU (s : State) : State := s.advance 1

/-- Phase 3 of a format S instruction once its operand is known (R133): the scratch is written and PC advanced by 3. -/
def State.enterS (s : State) (mode : AddrMode) (spec operand : Word) : State :=
  (s.setScratch spec mode operand).advance 3

/-- Phase 3 of a value-strategy instruction (R91, R133). -/
def State.enterValue (s : State) (mode : AddrMode) (spec : Word) : State :=
  s.enterS mode spec (s.valueOf mode spec)

/-- Phases 2 to 4 of an address-strategy instruction (R91): a mode that its legality check rejects raises DecodeError with
PC and scratch as they were (R71, R132); otherwise phase 3 and then the effect. -/
def State.withAddress (s : State) (legal : AddrMode → Bool) (mode : AddrMode) (spec : Word)
    (effect : State → Host.Outcome State Fault Refusal) : Host.Outcome State Fault Refusal :=
  match legal mode, s.addressOf mode spec with
  | true, some ea => effect (s.enterS mode spec ea)
  | _, _ => .next (s.raise .decodeError)

end Sys2Proof.Machine
end

