-- ==== Sys2Proof/Machine/Arith.lean ====
section
/-! DEFINITION. Arithmetic, logic, compare and the stack adjusts (46_arith_logic.md): all value strategy, all eight modes
legal, the left operand the register (R227). -/

namespace Sys2Proof.Machine

/-- ADDr (R220). -/
def execAddr (r : Reg) (mode : AddrMode) (spec : Word) (s : State) : Host.Outcome State Fault Refusal :=
  let s' := s.enterValue mode spec
  let o := add16 (s'.reg r) s'.operand
  .next ((s'.setReg r o.result).setFlags o.flags)

/-- SUBr (R221). -/
def execSubr (r : Reg) (mode : AddrMode) (spec : Word) (s : State) : Host.Outcome State Fault Refusal :=
  let s' := s.enterValue mode spec
  let o := sub16 (s'.reg r) s'.operand
  .next ((s'.setReg r o.result).setFlags o.flags)

/-- ANDr (R222). -/
def execAndr (r : Reg) (mode : AddrMode) (spec : Word) (s : State) : Host.Outcome State Fault Refusal :=
  let s' := s.enterValue mode spec
  let o := and16 (s'.reg r) s'.operand
  .next ((s'.setReg r o.result).setNZ o.n o.z)

/-- ORr (R223). -/
def execOrr (r : Reg) (mode : AddrMode) (spec : Word) (s : State) : Host.Outcome State Fault Refusal :=
  let s' := s.enterValue mode spec
  let o := or16 (s'.reg r) s'.operand
  .next ((s'.setReg r o.result).setNZ o.n o.z)

/-- CPr (R224): the flags of the subtraction; the result is discarded. -/
def execCpr (r : Reg) (mode : AddrMode) (spec : Word) (s : State) : Host.Outcome State Fault Refusal :=
  let s' := s.enterValue mode spec
  .next (s'.setFlags (sub16 (s'.reg r) s'.operand).flags)

/-- ADDSP (R225). -/
def execAddsp (mode : AddrMode) (spec : Word) (s : State) : Host.Outcome State Fault Refusal :=
  let s' := s.enterValue mode spec
  let o := add16 s'.sp s'.operand
  .next ((s'.setSp o.result).setFlags o.flags)

/-- SUBSP (R226). -/
def execSubsp (mode : AddrMode) (spec : Word) (s : State) : Host.Outcome State Fault Refusal :=
  let s' := s.enterValue mode spec
  let o := sub16 s'.sp s'.operand
  .next ((s'.setSp o.result).setFlags o.flags)

end Sys2Proof.Machine
end

