-- ==== Sys2Proof/Machine/Control.lean ====
section
/-! DEFINITION. Control instructions (43_control.md): halt, unsupported-return, branches, call, return, no-ops. -/

namespace Sys2Proof.Machine

/-- STOP (R150): the normal halt; ERR stays as it is. -/
def execStop (s : State) : Host.Outcome State Fault Refusal := .next s.enterU.halt

/-- RETTR (R160): raises UnsupportedInstruction with PC advanced by 1; nothing is popped. -/
def execRettr (s : State) : Host.Outcome State Fault Refusal :=
  .next (s.enterU.raise .unsupportedInstruction)

/-- What the nine branches share (R165): the operand is resolved whether or not the branch is taken (R101), and the target
is the operand itself, an absolute address. -/
def State.branchWhen (s : State) (cond : Bool) (mode : BranchMode) (spec : Word) : State :=
  let s' := s.enterValue (branchAddrMode mode) spec
  if cond then s'.setPc s'.operand else s'

/-- BR (R151). -/
def execBr (mode : BranchMode) (spec : Word) (s : State) : Host.Outcome State Fault Refusal :=
  .next (s.branchWhen true mode spec)

/-- BRLE (R152): Z or N. -/
def execBrle (mode : BranchMode) (spec : Word) (s : State) : Host.Outcome State Fault Refusal :=
  .next (s.branchWhen (s.flags.z || s.flags.n) mode spec)

/-- BRLT (R153): N. -/
def execBrlt (mode : BranchMode) (spec : Word) (s : State) : Host.Outcome State Fault Refusal :=
  .next (s.branchWhen s.flags.n mode spec)

/-- BREQ (R154): Z. -/
def execBreq (mode : BranchMode) (spec : Word) (s : State) : Host.Outcome State Fault Refusal :=
  .next (s.branchWhen s.flags.z mode spec)

/-- BRNE (R155): not Z. -/
def execBrne (mode : BranchMode) (spec : Word) (s : State) : Host.Outcome State Fault Refusal :=
  .next (s.branchWhen (!s.flags.z) mode spec)

/-- BRGE (R156): not N. -/
def execBrge (mode : BranchMode) (spec : Word) (s : State) : Host.Outcome State Fault Refusal :=
  .next (s.branchWhen (!s.flags.n) mode spec)

/-- BRGT (R157): not N and not Z. -/
def execBrgt (mode : BranchMode) (spec : Word) (s : State) : Host.Outcome State Fault Refusal :=
  .next (s.branchWhen (!s.flags.n && !s.flags.z) mode spec)

/-- BRV (R158): V. -/
def execBrv (mode : BranchMode) (spec : Word) (s : State) : Host.Outcome State Fault Refusal :=
  .next (s.branchWhen s.flags.v mode spec)

/-- BRC (R159): C. -/
def execBrc (mode : BranchMode) (spec : Word) (s : State) : Host.Outcome State Fault Refusal :=
  .next (s.branchWhen s.flags.c mode spec)

/-- The push of call (R161): `SP <- SP - 2`, then the word at the new SP. -/
def State.push (s : State) (w : Word) : State :=
  let s' := s.setSp (s.sp - 2)
  s'.storeWord s'.sp w

/-- CALL (R161): the operand is resolved before the push; the pushed word is the advanced PC. -/
def execCall (mode : BranchMode) (spec : Word) (s : State) : Host.Outcome State Fault Refusal :=
  let s' := s.enterValue (branchAddrMode mode) spec
  .next ((s'.push s'.pc).setPc s'.operand)

/-- One SP update of return in the direction RET_SP_DIRECTION gives (R162). -/
def State.retAdjust (s : State) (k : Word) : State :=
  match s.cfg.retSpDirection with
  | .sub => s.setSp (s.sp - k)
  | .add => s.setSp (s.sp + k)

/-- RETn (R162): SP moves by the count, the return address is read at SP, SP moves by 2. -/
def execRetn (count : BitVec 3) (s : State) : Host.Outcome State Fault Refusal :=
  let s' := s.enterU.retAdjust (count.setWidth 16)
  let t := Memory.readWord s'.mem s'.sp
  .next ((s'.retAdjust 2).setPc t)

/-- NOPn (R163): no effect beyond the advance; the low two opcode bits are ignored. -/
def execNopn (_nn : BitVec 2) (s : State) : Host.Outcome State Fault Refusal := .next s.enterU

/-- NOP (R164): the specifier is fetched and PC advanced by 3; a mode other than immediate is a DecodeError (R69). -/
def execNop (mode : AddrMode) (spec : Word) (s : State) : Host.Outcome State Fault Refusal :=
  if mode.legalForNop then .next (s.enterValue mode spec) else .next (s.raise .decodeError)

end Sys2Proof.Machine
end

