-- ==== Sys2Proof/Machine/InputOutput.lean ====
section
/-! DEFINITION. The I/O adapter and its five instructions (47_io.md). -/

namespace Sys2Proof.Machine

/-! ### Decimal text (R242, R244, R246) -/

/-- A digit: a byte 0x30 to 0x39 (R242; the ASCII codes are PRESUMED, log 16). -/
def isDigit (b : Byte) : Bool := decide (0x30 ≤ b.toNat) && decide (b.toNat ≤ 0x39)

/-- The value of a digit byte. -/
def digitValue (b : Byte) : Nat := b.toNat - 0x30

/-- The minus byte (R242). -/
def minusByte : Byte := 0x2D#8

/-- The loop of R244: digits accumulate without bound (D11); the byte that ends the number is consumed and lost (D9);
exhaustion ends it too. -/
def readDigits : List Byte → Nat → Nat × List Byte
  | [], acc => (acc, [])
  | b :: rest, acc => if isDigit b then readDigits rest (acc * 10 + digitValue b) else (acc, rest)

/-- The decimal reader (R244): the value or the error raised, and the bytes left unread. -/
def readDecimal (continueOnExhaustion : Bool) (input : List Byte) : Except ErrKind Int × List Byte :=
  match input with
  | [] => (.error (if continueOnExhaustion then .inputFormatError else .inputExhausted), [])
  | b :: rest =>
    if b = minusByte then
      let (n, left) := readDigits rest 0
      (.ok (-(n : Int)), left)
    else if isDigit b then
      let (n, left) := readDigits rest (digitValue b)
      (.ok (n : Int), left)
    else (.error .inputFormatError, rest)

/-- The decimal digits of a number, most significant first, at most `fuel` of them. -/
def decimalDigits : Nat → Nat → List Nat
  | 0, _ => []
  | fuel + 1, n => if n < 10 then [n] else decimalDigits fuel (n / 10) ++ [n % 10]

/-- The shortest decimal text of a word as a signed number (R246, D13): five digits are enough for 32768. -/
def decimalText (w : Word) : List Byte :=
  let v := w.toInt
  (if v < 0 then [minusByte] else []) ++ (decimalDigits 5 v.natAbs).map fun d => BitVec.ofNat 8 (0x30 + d)

/-! ### The scan of string output (R247) -/

/-- The bytes from `a` upward before the first zero byte, the address wrapping at 0xFFFF; `none` when the next `fuel`
bytes hold no zero. -/
def scanString (m : Memory) : Nat → Word → Option (List Byte)
  | 0, _ => none
  | fuel + 1, a =>
    let b := Memory.read m a
    if b = 0x00#8 then some []
    else
      match scanString m fuel (a + 1) with
      | none => none
      | some rest => some (b :: rest)

/-! ### The instructions -/

/-- DECI (R245): V for a value outside -32768..32767, N and Z from the truncated word (D11), C untouched. An error writes
nothing but RUN, ERR and the bytes consumed (R277); immediate is a DecodeError (R71). -/
def execDeci (mode : AddrMode) (spec : Word) (s : State) : Host.Outcome State Fault Refusal :=
  s.withAddress AddrMode.legalForAddress mode spec fun s' =>
    match readDecimal s'.cfg.continueOnInputExhaustion s'.input with
    | (.error k, rest) => .next ((s'.setInput rest).raise k)
    | (.ok val, rest) =>
      let w := BitVec.ofInt 16 val
      let v := decide (val > 32767) || decide (val < -32768)
      .next ((((s'.setInput rest).setV v).setNZ (negativeBit w) (zeroBit w)).storeWord s'.operand w)

/-- DECO (R246). -/
def execDeco (mode : AddrMode) (spec : Word) (s : State) : Host.Outcome State Fault Refusal :=
  let s' := s.enterValue mode spec
  .next (s'.put (decimalText s'.operand))

/-- STRO (R247): legal for three modes only (R70). 65536 bytes are the whole of memory, so a scan that meets no zero in
them never ends (R248). -/
def execStro (mode : AddrMode) (spec : Word) (s : State) : Host.Outcome State Fault Refusal :=
  s.withAddress AddrMode.legalForString mode spec fun s' =>
    match scanString s'.mem 65536 s'.operand with
    | some bytes => .next (s'.put bytes)
    | none => .fault .stringOutputNeverEnds

/-- CHARI (R250): one byte at the resolved address (D8); on an exhausted stream InputExhausted, or a zero byte under
`continueOnInputExhaustion` (R251); immediate is a DecodeError (R71). -/
def execChari (mode : AddrMode) (spec : Word) (s : State) : Host.Outcome State Fault Refusal :=
  s.withAddress AddrMode.legalForAddress mode spec fun s' =>
    match s'.input, s'.cfg.continueOnInputExhaustion with
    | b :: rest, _ => .next ((s'.setInput rest).storeByte s'.operand b)
    | [], true => .next (s'.storeByte s'.operand 0x00#8)
    | [], false => .next (s'.raise .inputExhausted)

/-- CHARO (R252): the high byte of the operand. -/
def execCharo (mode : AddrMode) (spec : Word) (s : State) : Host.Outcome State Fault Refusal :=
  let s' := s.enterValue mode spec
  .next (s'.put [hiByte s'.operand])

end Sys2Proof.Machine
end

