-- ==== Sys2Proof/Machine/LoadStore.lean ====
section
/-! DEFINITION. Loads and stores (45_load_store.md). The byte forms work on the high byte of a full word (R101). -/

namespace Sys2Proof.Machine

/-- A load of a 16-bit value into `R[r]`, with N and Z only under LOAD_SETS_NZ (D4). -/
def State.loadReg (s : State) (r : Reg) (w : Word) : State :=
  (s.setReg r w).setNZWhen s.cfg.loadSetsNZ w

/-- LDr (R200). -/
def execLdr (r : Reg) (mode : AddrMode) (spec : Word) (s : State) : Host.Outcome State Fault Refusal :=
  let s' := s.enterValue mode spec
  .next (s'.loadReg r s'.operand)

/-- LDBYTEr (R201): the high byte of the operand, zero-extended over the whole register. -/
def execLdbyter (r : Reg) (mode : AddrMode) (spec : Word) (s : State) : Host.Outcome State Fault Refusal :=
  let s' := s.enterValue mode spec
  .next (s'.loadReg r (zeroExtend (hiByte s'.operand)))

/-- STr (R202); immediate is a DecodeError (R71). -/
def execStr (r : Reg) (mode : AddrMode) (spec : Word) (s : State) : Host.Outcome State Fault Refusal :=
  s.withAddress AddrMode.legalForAddress mode spec fun s' => .next (s'.storeWord s'.operand (s'.reg r))

/-- STBYTEr (R203): the register's high byte to the one byte at the address (D7); immediate is a DecodeError (R71). -/
def execStbyter (r : Reg) (mode : AddrMode) (spec : Word) (s : State) : Host.Outcome State Fault Refusal :=
  s.withAddress AddrMode.legalForAddress mode spec fun s' => .next (s'.storeByte s'.operand (hiByte (s'.reg r)))

end Sys2Proof.Machine
end

