-- ==== Sys2Proof/Machine/Unary.lean ====
section
/-! DEFINITION. Register moves and the six single-register operations (44_unary.md). -/

namespace Sys2Proof.Machine

/-- MOVSPA (R180): `A <- SP`. -/
def execMovspa (s : State) : Host.Outcome State Fault Refusal := .next (s.enterU.setReg .a s.sp)

/-- MOVFLGA (R181): the flags into `A[3:0]`, and `A[15:4]` per MOVFLGA_UPPER. -/
def execMovflga (s : State) : Host.Outcome State Fault Refusal :=
  let s' := s.enterU.setReg .a (s.movflgaUpper ++ s.flags.pack)
  .next (if s.cfg.movflgaUpper = .any then s'.drawFree else s')

/-- NOTr (R182). -/
def execNotr (r : Reg) (s : State) : Host.Outcome State Fault Refusal :=
  let o := not16 (s.reg r)
  .next ((s.enterU.setReg r o.result).setNZ o.n o.z)

/-- NEGr (R183). -/
def execNegr (r : Reg) (s : State) : Host.Outcome State Fault Refusal :=
  let o := negop16 (s.reg r)
  .next (((s.enterU.setReg r o.result).setNZ o.n o.z).setV o.v)

/-- ASLr (R184); N and Z only under SHIFT_SETS_NZ. -/
def execAslr (r : Reg) (s : State) : Host.Outcome State Fault Refusal :=
  let o := asl16 (s.reg r)
  .next ((((s.enterU.setReg r o.result).setV o.v).setC o.c).setNZWhen s.cfg.shiftSetsNZ o.result)

/-- ASRr (R185); N and Z only under SHIFT_SETS_NZ. -/
def execAsrr (r : Reg) (s : State) : Host.Outcome State Fault Refusal :=
  let o := asr16 (s.reg r)
  .next (((s.enterU.setReg r o.result).setC o.c).setNZWhen s.cfg.shiftSetsNZ o.result)

/-- ROLr (R186). -/
def execRolr (r : Reg) (s : State) : Host.Outcome State Fault Refusal :=
  let o := rol16 (s.reg r) s.flags.c
  .next ((s.enterU.setReg r o.result).setC o.c)

/-- RORr (R187). -/
def execRorr (r : Reg) (s : State) : Host.Outcome State Fault Refusal :=
  let o := ror16 (s.reg r) s.flags.c
  .next ((s.enterU.setReg r o.result).setC o.c)

end Sys2Proof.Machine
end

