-- ==== Sys2Proof/Machine/Dispatch.lean ====
section
/-! DEFINITION. One arm per instruction: phases 2 (legality), 3, 4 and 6 of the cycle (R132 to R136) for an instruction
that starts in the given state. -/

namespace Sys2Proof.Machine

/-- The effect of an instruction that starts in `s`, with `s.pc` the address of its opcode (R132 to R136). -/
def exec (i : Instr) (s : State) : Host.Outcome State Fault Refusal :=
  match i with
  | .stop => Sys2Proof.Machine.execStop s
  | .rettr => Sys2Proof.Machine.execRettr s
  | .movspa => Sys2Proof.Machine.execMovspa s
  | .movflga => Sys2Proof.Machine.execMovflga s
  | .br mode spec => Sys2Proof.Machine.execBr mode spec s
  | .brle mode spec => Sys2Proof.Machine.execBrle mode spec s
  | .brlt mode spec => Sys2Proof.Machine.execBrlt mode spec s
  | .breq mode spec => Sys2Proof.Machine.execBreq mode spec s
  | .brne mode spec => Sys2Proof.Machine.execBrne mode spec s
  | .brge mode spec => Sys2Proof.Machine.execBrge mode spec s
  | .brgt mode spec => Sys2Proof.Machine.execBrgt mode spec s
  | .brv mode spec => Sys2Proof.Machine.execBrv mode spec s
  | .brc mode spec => Sys2Proof.Machine.execBrc mode spec s
  | .call mode spec => Sys2Proof.Machine.execCall mode spec s
  | .notr r => Sys2Proof.Machine.execNotr r s
  | .negr r => Sys2Proof.Machine.execNegr r s
  | .aslr r => Sys2Proof.Machine.execAslr r s
  | .asrr r => Sys2Proof.Machine.execAsrr r s
  | .rolr r => Sys2Proof.Machine.execRolr r s
  | .rorr r => Sys2Proof.Machine.execRorr r s
  | .nopn nn => Sys2Proof.Machine.execNopn nn s
  | .nop mode spec => Sys2Proof.Machine.execNop mode spec s
  | .deci mode spec => Sys2Proof.Machine.execDeci mode spec s
  | .deco mode spec => Sys2Proof.Machine.execDeco mode spec s
  | .stro mode spec => Sys2Proof.Machine.execStro mode spec s
  | .chari mode spec => Sys2Proof.Machine.execChari mode spec s
  | .charo mode spec => Sys2Proof.Machine.execCharo mode spec s
  | .retn count => Sys2Proof.Machine.execRetn count s
  | .addsp mode spec => Sys2Proof.Machine.execAddsp mode spec s
  | .subsp mode spec => Sys2Proof.Machine.execSubsp mode spec s
  | .addr r mode spec => Sys2Proof.Machine.execAddr r mode spec s
  | .subr r mode spec => Sys2Proof.Machine.execSubr r mode spec s
  | .andr r mode spec => Sys2Proof.Machine.execAndr r mode spec s
  | .orr r mode spec => Sys2Proof.Machine.execOrr r mode spec s
  | .cpr r mode spec => Sys2Proof.Machine.execCpr r mode spec s
  | .ldr r mode spec => Sys2Proof.Machine.execLdr r mode spec s
  | .ldbyter r mode spec => Sys2Proof.Machine.execLdbyter r mode spec s
  | .str r mode spec => Sys2Proof.Machine.execStr r mode spec s
  | .stbyter r mode spec => Sys2Proof.Machine.execStbyter r mode spec s

end Sys2Proof.Machine
end

