-- ==== Sys2Proof/Machine/Trace.lean ====
section
/-! DEFINITION. Phase 5 of the cycle: the trace line (R135, R288). -/

namespace Sys2Proof.Machine

/-- The register of an instruction with a register field (R61), the trace's optional register letter. -/
def traceReg : Instr → Option Reg
  | .notr r | .negr r | .aslr r | .asrr r | .rolr r | .rorr r => some r
  | .addr r _ _ | .subr r _ _ | .andr r _ _ | .orr r _ _ | .cpr r _ _ => some r
  | .ldr r _ _ | .ldbyter r _ _ | .str r _ _ | .stbyter r _ _ => some r
  | .stop | .rettr | .movspa | .movflga | .nopn _ | .retn _ => none
  | .br _ _ | .brle _ _ | .brlt _ _ | .breq _ _ | .brne _ _ => none
  | .brge _ _ | .brgt _ _ | .brv _ _ | .brc _ _ | .call _ _ => none
  | .nop _ _ | .deci _ _ | .deco _ _ | .stro _ _ | .chari _ _ | .charo _ _ => none
  | .addsp _ _ | .subsp _ _ => none

/-- The mode of an instruction with a mode field (R62, R64), the trace's optional addressing-mode suffix. -/
def traceMode : Instr → Option AddrMode
  | .br m _ | .brle m _ | .brlt m _ | .breq m _ | .brne m _ => some (branchAddrMode m)
  | .brge m _ | .brgt m _ | .brv m _ | .brc m _ | .call m _ => some (branchAddrMode m)
  | .nop m _ | .deci m _ | .deco m _ | .stro m _ | .chari m _ | .charo m _ => some m
  | .addsp m _ | .subsp m _ => some m
  | .addr _ m _ | .subr _ m _ | .andr _ m _ | .orr _ m _ | .cpr _ m _ => some m
  | .ldr _ m _ | .ldbyter _ m _ | .str _ m _ | .stbyter _ m _ => some m
  | .stop | .rettr | .movspa | .movflga | .nopn _ | .retn _ => none
  | .notr _ | .negr _ | .aslr _ | .asrr _ | .rolr _ | .rorr _ => none

/-- The line for an instruction that has just been executed: the fields of R288 as they are after its effect. -/
def State.traceLine (s : State) (i : Instr) : TraceLine where
  pc := s.pc
  sp := s.sp
  a := s.a
  x := s.x
  spec := s.spec
  flags := s.flags
  opcode := s.ir
  mnemonic := { base := i.base, reg := traceReg i, mode := traceMode i }

/-- The step that led here completed its instruction and raised no error (R135, D23): the machine runs on, or it is the
normal halt. -/
def State.completed (s : State) : Bool := decide (s.run = .running) || decide (s.err = .none)

/-- Phase 5 after an instruction (R135): a line when tracing is enabled and the instruction was executed to completion. -/
def State.traced (s : State) (i : Instr) : State :=
  if s.cfg.traceEnabled && s.completed then s.emitLine (s.traceLine i) else s

/-- Phase 5 on the outcome of phases 2 to 4. -/
def traceOutcome (i : Instr) : Host.Outcome State Fault Refusal → Host.Outcome State Fault Refusal
  | .next s => .next (s.traced i)
  | .fault f => .fault f
  | .refused r => .refused r

end Sys2Proof.Machine
end

