-- ==== Sys2Proof/Machine/Cycle.lean ====
section
/-! DEFINITION. The execution cycle (42_cycle.md): fetch, decode, the effect and the trace as one step; and the placing of
an instruction where the next fetch reads. -/

namespace Sys2Proof.Machine

/-- The bytes at PC, PC + 1 and PC + 2, each address modulo 65536 (R60, R131, R133). Reading the last two for an opcode
that takes no specifier has no effect (R49). -/
def fetchBytes (s : State) : List Byte :=
  [Memory.read s.mem s.pc, Memory.read s.mem (s.pc + 1), Memory.read s.mem (s.pc + 2)]

/-- Phase 1 (R131): `IR <- MemRead(PC, 1)`. -/
def State.fetch (s : State) : State := s.setIr (Memory.read s.mem s.pc)

/-- One step (R130, R137). A halted machine takes none and stays as it is (R17, R282; log 7). An opcode the OPCODE_MAP
leaves out raises InternalError, with IR loaded and PC unmoved (R73, log 13). -/
def cycle (s : State) : Host.Outcome State Fault Refusal :=
  match s.run with
  | .halted => .next s
  | .running =>
    match decode s.cfg (fetchBytes s) with
    | .error _ => .next (s.fetch.raise .internalError)
    | .ok (i, _) => traceOutcome i (exec i s.fetch)

/-- The bytes of a table word stored at PC. -/
def State.placeWord (s : State) (nbits w : Nat) : State :=
  { s with mem := Memory.writeBytes s.mem s.pc (tableBytes nbits w) }

end Sys2Proof.Machine
end

