-- ==== Sys2Proof/Machine/Reset.lean ====
section
/-! DEFINITION. The reset port (R30, R300, R302): reset with a program image, an input stream and a configuration. -/

namespace Sys2Proof.Machine

/-- `reset(image)`: the state of R27 with the image copied verbatim from address 0 and 0x00 beyond it (R302). No argument
is the state before it, so nothing survives (R300). An image of more than 65536 bytes is refused (D18). -/
def resetWith (cfg : Config) (image input : List Byte) : Host.Outcome State Fault Refusal :=
  if image.length ≤ 65536 then
    .next { State.reset with mem := Memory.writeBytes [] 0 image, input := input, cfg := cfg }
  else .refused (.imageTooLong image.length)

end Sys2Proof.Machine
end

