-- ==== Sys2Proof/WellFormed.lean ====
section
/-! DEFINITION. Which instructions the decoder's legality verdict accepts (R68, R72): every form but those the three
checks R69, R70 and R71 reject. -/

namespace Sys2Proof

/-- The legality verdict on an instruction (R68): `false` exactly for the forms R69, R70 and R71 reject. -/
def Instr.wellFormed : Instr → Bool
  | .nop m _ => m.legalForNop
  | .stro m _ => m.legalForString
  | .deci m _ => m.legalForAddress
  | .chari m _ => m.legalForAddress
  | .str _ m _ => m.legalForAddress
  | .stbyter _ m _ => m.legalForAddress
  | .stop | .rettr | .movspa | .movflga => true
  | .br _ _ | .brle _ _ | .brlt _ _ | .breq _ _ | .brne _ _ => true
  | .brge _ _ | .brgt _ _ | .brv _ _ | .brc _ _ | .call _ _ => true
  | .notr _ | .negr _ | .aslr _ | .asrr _ | .rolr _ | .rorr _ => true
  | .nopn _ | .retn _ | .deco _ _ | .charo _ _ | .addsp _ _ | .subsp _ _ => true
  | .addr _ _ _ | .subr _ _ _ | .andr _ _ _ | .orr _ _ _ | .cpr _ _ _ => true
  | .ldr _ _ _ | .ldbyter _ _ _ => true

end Sys2Proof
end

