-- ==== Sys2Proof/Safety.lean ====
section
/-! DEFINITION. The terms claims are stated in: what two states share, what a step may change, and the invariant of the
machine. -/

namespace Sys2Proof.Machine

/-! ### Frames -/

/-- Every byte of memory reads as before. -/
def SameMemory (s t : State) : Prop := ∀ a : Word, Memory.read t.mem a = Memory.read s.mem a

/-- Every byte of memory outside the listed addresses reads as before. -/
def SameMemoryBut (stored : List Word) (s t : State) : Prop :=
  ∀ a : Word, a ∉ stored → Memory.read t.mem a = Memory.read s.mem a

/-- A, X and SP as before. -/
def SameRegs (s t : State) : Prop := t.a = s.a ∧ t.x = s.x ∧ t.sp = s.sp

/-- Of A, X and SP, only `R[r]` may have changed. -/
def SameRegsBut (r : Reg) (s t : State) : Prop := (∀ q : Reg, q ≠ r → t.reg q = s.reg q) ∧ t.sp = s.sp

/-- Both streams as before. -/
def SameStreams (s t : State) : Prop := t.input = s.input ∧ t.output = s.output

/-- The decode scratch as before: a format U instruction (R20). -/
def SameScratch (s t : State) : Prop := t.spec = s.spec ∧ t.mode = s.mode ∧ t.operand = s.operand

/-- The decode scratch a format S instruction leaves (R20, R133). -/
def ScratchIs (t : State) (spec : Word) (mode : AddrMode) (operand : Word) : Prop :=
  t.spec = spec ∧ t.mode = some mode ∧ t.operand = operand

/-- RUN and ERR as before. -/
def SameRun (s t : State) : Prop := t.run = s.run ∧ t.err = s.err

/-- IR, the trace, the configuration and the model's own counter as before. -/
def SameRest (s t : State) : Prop :=
  t.ir = s.ir ∧ t.trace = s.trace ∧ t.cfg = s.cfg ∧ t.freeIndex = s.freeIndex

/-- What an instruction leaves alone that raises nothing, draws no free value and has no input or output. -/
def SameAround (s t : State) : Prop := SameStreams s t ∧ SameRun s t ∧ SameRest s t

/-! ### What the rules say in their own terms -/

/-- The target of a branch or call: the specifier itself, or the word read at `Spec + X` (R165). -/
def branchTarget (s : State) (mode : BranchMode) (spec : Word) : Word :=
  match mode with
  | .immediate => spec
  | .indexed => Memory.readWord s.mem (spec + s.x)

/-- A branch of the shape of R165: PC becomes the target when the condition on the flags holds, else the address of the
next instruction, and nothing else changes but the scratch. -/
def BranchesOn (branch : BranchMode → Word → Instr) (cond : Flags → Bool) : Prop :=
  ∀ (mode : BranchMode) (spec : Word) (s : State), ∃ t : State,
    exec (branch mode spec) s = .next t ∧
    t.pc = (if cond s.flags then branchTarget s mode spec else s.pc + 3) ∧
    ScratchIs t spec (branchAddrMode mode) (branchTarget s mode spec) ∧
    SameRegs s t ∧ t.flags = s.flags ∧ SameMemory s t ∧ SameAround s t

/-- The rows of R16's table that write N and Z. -/
def writesNZ (cfg : Config) (b : BaseOp) : Bool :=
  match b with
  | .addr | .subr | .cpr | .addsp | .subsp | .andr | .orr | .notr | .negr | .deci => true
  | .aslr | .asrr => cfg.shiftSetsNZ
  | .ldr | .ldbyter => cfg.loadSetsNZ
  | .stop | .rettr | .movspa | .movflga | .rolr | .rorr | .nopn | .nop | .deco | .stro | .chari | .charo => false
  | .br | .brle | .brlt | .breq | .brne | .brge | .brgt | .brv | .brc | .call | .retn | .str | .stbyter => false

/-- The rows of R16's table that write V. -/
def writesV (b : BaseOp) : Bool :=
  b ∈ [.addr, .subr, .cpr, .addsp, .subsp, .negr, .aslr, .deci]

/-- The rows of R16's table that write C. -/
def writesC (b : BaseOp) : Bool :=
  b ∈ [.addr, .subr, .cpr, .addsp, .subsp, .aslr, .asrr, .rolr, .rorr]

/-- The number a run of digit bytes stands for, the first the most significant. -/
def digitsValue (digits : List Byte) : Nat := digits.foldl (fun acc d => acc * 10 + digitValue d) 0

/-! ### The invariant -/

/-- What holds of every reachable state: memory in its canonical form (R21), ERR None while the machine runs (R18), and N
and Z never both 1, since every writer of one writes the other from the same word (R16). -/
structure State.Inv (s : State) : Prop where
  canonicalMemory : Memory.wf s.mem = true
  noErrorWhileRunning : s.run = .running → s.err = .none
  notNegativeZero : ¬(s.flags.n = true ∧ s.flags.z = true)

/-! ### Comparing runs -/

/-- The outcome with its next state, if it has one, passed through `f`. -/
def mapNext (f : State → State) : Host.Outcome State Fault Refusal → Host.Outcome State Fault Refusal
  | .next s => .next (f s)
  | .fault r => .fault r
  | .refused r => .refused r

/-- The state with IR, the decode scratch and the trace forgotten. -/
def State.forgetScratch (s : State) : State :=
  { s with ir := 0, spec := 0, mode := none, operand := 0, trace := [] }

/-- The state with the trace and whether it is enabled forgotten. -/
def State.forgetTrace (s : State) : State :=
  { s with trace := [], cfg := { s.cfg with traceEnabled := false } }

/-- The state with bytes written to Out before everything it holds. -/
def State.prependOutput (o : List Byte) (s : State) : State := { s with output := o ++ s.output }

end Sys2Proof.Machine
end

