-- ==== Sys2Proof/Certificates/Slice0/Obligations.lean ====
section
/-! DEFINITION. The statements for the provers. -/

open Sys2Proof Sys2Proof.Machine

/-! ### The Arithmetic/Flag Unit -/

/-- R111, whole: the sum truncated to 16 bits and the four flags. -/
def Obligations.Add16GivesSumAndFlags : Prop :=
  ∀ lhs rhs : Word,
    (add16 lhs rhs).result.toNat = (lhs.toNat + rhs.toNat) % 65536 ∧
    ((add16 lhs rhs).flags.c = true ↔ 65536 ≤ lhs.toNat + rhs.toNat) ∧
    (add16 lhs rhs).flags.n = (add16 lhs rhs).result.msb ∧
    ((add16 lhs rhs).flags.z = true ↔ (add16 lhs rhs).result = 0) ∧
    ((add16 lhs rhs).flags.v = true ↔ lhs.msb = rhs.msb ∧ (add16 lhs rhs).result.msb ≠ lhs.msb)

/-- R111's 'classic signed-overflow rule' is true signed overflow of the sum. -/
def Obligations.Add16OverflowIsSignedOverflow : Prop :=
  ∀ lhs rhs : Word,
    (add16 lhs rhs).flags.v = true ↔ lhs.toInt + rhs.toInt < -32768 ∨ 32767 < lhs.toInt + rhs.toInt

/-- R112 and R113, whole: negation, and subtraction as addition of the negated right operand. -/
def Obligations.Sub16AddsTheNegatedOperand : Prop :=
  (∀ v : Word, (neg16 v).toNat = (65536 - v.toNat) % 65536 ∧ neg16 v = ~~~v + 1) ∧
  (∀ lhs rhs : Word, sub16 lhs rhs = add16 lhs (neg16 rhs) ∧ (sub16 lhs rhs).result = lhs - rhs) ∧
  sub16 0x0005 0x0003 = { result := 0x0002, flags := { n := false, z := false, v := false, c := true } }

/-- R114: C after a subtraction, V for every right operand, N and Z. -/
def Obligations.Sub16FlagsInEveryCorner : Prop :=
  ∀ lhs rhs : Word,
    ((sub16 lhs rhs).flags.c = true ↔ rhs ≠ 0 ∧ rhs.toNat ≤ lhs.toNat) ∧
    (rhs ≠ 0x8000 →
      ((sub16 lhs rhs).flags.v = true ↔ lhs.toInt - rhs.toInt < -32768 ∨ 32767 < lhs.toInt - rhs.toInt)) ∧
    (rhs = 0x8000 → (sub16 lhs rhs).flags.v = lhs.msb) ∧
    (sub16 lhs rhs).flags.n = (lhs - rhs).msb ∧
    ((sub16 lhs rhs).flags.z = true ↔ lhs = rhs)

/-- R122: the document's law and its instances; signed and unsigned arithmetic give one 16-bit result. -/
def Obligations.AddAndSubAreInverse : Prop :=
  ∀ lhs rhs v : Word,
    (sub16 (add16 lhs rhs).result rhs).result = lhs ∧
    (add16 lhs rhs).result = BitVec.ofInt 16 (lhs.toInt + rhs.toInt) ∧
    (sub16 lhs rhs).result = BitVec.ofInt 16 (lhs.toInt - rhs.toInt) ∧
    add16 v 0 = { result := v, flags := { n := v.msb, z := decide (v = 0), v := false, c := false } } ∧
    sub16 v v =
      { result := 0, flags := { n := false, z := true, v := decide (v = 0x8000), c := decide (v ≠ 0) } }

/-- R115 and R116, whole, bit by bit. -/
def Obligations.ShiftsMoveEachBitByOne : Prop :=
  (∀ v : Word,
    (asl16 v).result.getLsbD 0 = false ∧
    (∀ i : Nat, 1 ≤ i → i < 16 → (asl16 v).result.getLsbD i = v.getLsbD (i - 1)) ∧
    (asl16 v).c = v.getLsbD 15 ∧
    ((asl16 v).v = true ↔ (asl16 v).result.getLsbD 15 ≠ v.getLsbD 15)) ∧
  (∀ v : Word,
    (asr16 v).result.getLsbD 15 = v.getLsbD 15 ∧
    (∀ i : Nat, i < 15 → (asr16 v).result.getLsbD i = v.getLsbD (i + 1)) ∧
    (asr16 v).c = v.getLsbD 0)

/-- R117 and R118, whole: each rotation bit by bit, the left one a 17-bit rotation of the carry with the value; with R186's
corner case, that seventeen rotations left restore the value and the carry, and that one right undoes one left. -/
def Obligations.RotatesGoThroughCarry : Prop :=
  ∀ (v : Word) (cin : Bool),
    (rol16 v cin).result.getLsbD 0 = cin ∧
    (∀ i : Nat, 1 ≤ i → i < 16 → (rol16 v cin).result.getLsbD i = v.getLsbD (i - 1)) ∧
    (rol16 v cin).c = v.getLsbD 15 ∧
    (ror16 v cin).result.getLsbD 15 = cin ∧
    (∀ i : Nat, i < 15 → (ror16 v cin).result.getLsbD i = v.getLsbD (i + 1)) ∧
    (ror16 v cin).c = v.getLsbD 0 ∧
    BitVec.ofBool (rol16 v cin).c ++ (rol16 v cin).result = (BitVec.ofBool cin ++ v).rotateLeft 1 ∧
    (fun p : CarryOut => rol16 p.result p.c)^[17] { result := v, c := cin } = { result := v, c := cin } ∧
    ror16 (rol16 v cin).result (rol16 v cin).c = { result := v, c := cin }

/-- R119 and R121, whole: complement, and, or, with N and Z of the result. -/
def Obligations.LogicFunctionsGiveBitsAndNZ : Prop :=
  (∀ v : Word,
    (∀ i : Nat, i < 16 → (not16 v).result.getLsbD i = !v.getLsbD i) ∧
    (not16 v).n = (not16 v).result.msb ∧ ((not16 v).z = true ↔ (not16 v).result = 0)) ∧
  (∀ l r : Word,
    (and16 l r).result = l &&& r ∧
    (and16 l r).n = (and16 l r).result.msb ∧ ((and16 l r).z = true ↔ (and16 l r).result = 0)) ∧
  (∀ l r : Word,
    (or16 l r).result = l ||| r ∧
    (or16 l r).n = (or16 l r).result.msb ∧ ((or16 l r).z = true ↔ (or16 l r).result = 0))

/-! ### Memory and operands -/

/-- R41, R42 and R43: a byte reads as last written and no other byte changes, over every memory list, canonical or not;
the word read is big-endian, and at 0xFFFF its second byte is that of address 0. -/
def Obligations.MemoryReadsAsLastWritten : Prop :=
  (∀ (m : Memory) (a b : Word) (v : Byte),
    Memory.read (Memory.write m a v) b = if b = a then v else Memory.read m b) ∧
  (∀ (m : Memory) (a : Word),
    (Memory.readWord m a).toNat = 256 * (Memory.read m a).toNat + (Memory.read m (a + 1)).toNat) ∧
  (∀ m : Memory, Memory.readWord m 0xFFFF = Memory.read m 0xFFFF ++ Memory.read m 0x0000)

/-- R44 (the byte order of a write is the spec's derivation, D15): the two bytes a word write sets, no other changed, and
the word reads back at every address. -/
def Obligations.WordWriteSetsTwoBytes : Prop :=
  ∀ (m : Memory) (a v : Word),
    (Memory.read (Memory.writeWord m a v) a).toNat = v.toNat / 256 ∧
    (Memory.read (Memory.writeWord m a v) (a + 1)).toNat = v.toNat % 256 ∧
    (∀ b : Word, b ≠ a → b ≠ a + 1 → Memory.read (Memory.writeWord m a v) b = Memory.read m b) ∧
    Memory.readWord (Memory.writeWord m a v) a = v

/-- R92 to R99 as R100 tabulates them: the operand of each mode under each strategy, with the SP and X of the start. -/
def Obligations.ResolverFollowsTheModeTable : Prop :=
  ∀ (s : State) (spec : Word),
    s.valueOf .immediate spec = spec ∧ s.addressOf .immediate spec = none ∧
    s.addressOf .direct spec = some spec ∧
    s.addressOf .indirect spec = some (Memory.readWord s.mem spec) ∧
    s.addressOf .stackRelative spec = some (spec + s.sp) ∧
    s.addressOf .stackRelativeDeferred spec = some (Memory.readWord s.mem (s.sp + spec)) ∧
    s.addressOf .indexed spec = some (spec + s.x) ∧
    s.addressOf .stackIndexed spec = some (spec + s.sp + s.x) ∧
    s.addressOf .stackIndexedDeferred spec = some (Memory.readWord s.mem (s.sp + spec) + s.x) ∧
    (∀ (mode : AddrMode) (ea : Word),
      s.addressOf mode spec = some ea → s.valueOf mode spec = Memory.readWord s.mem ea)

/-! ### Decoding -/

/-- Each instruction's bytes decode to it, under the default OPCODE_MAP and MODE_CODE (PRESUMED, log 1), whatever follows
them: no field of an encoding is dropped (R60 to R66, R75). -/
def Obligations.DecodeOfEncodeIsTheInstruction : Prop :=
  ∀ (i : Instr) (rest : List Byte), decode Config.default (encode i ++ rest) = .ok (i, rest)

/-- What the decoder of the default configuration accepts is the encoding of what it answers: two different encodings
never decode to one instruction (R66, R76; the map is PRESUMED, log 1). -/
def Obligations.EncodeOfDecodeIsTheBytes : Prop :=
  ∀ (bytes rest : List Byte) (i : Instr), decode Config.default bytes = .ok (i, rest) → encode i ++ rest = bytes

/-- R76 for every configuration: the length is a function of the base operation alone, and what stands after the
instruction is left. -/
def Obligations.DecodeTakesTheLengthOfTheBaseOperation : Prop :=
  ∀ (cfg : Config) (op : Byte) (rest : List Byte) (b : BaseOp),
    lookupOpcode cfg.opcodeMap op = some b →
    (b.requiresSpec = false → ∃ i : Instr, decode cfg (op :: rest) = .ok (i, rest) ∧ i.base = b) ∧
    (b.requiresSpec = true → ∀ hi lo : Byte, ∃ i : Instr,
      decode cfg (op :: hi :: lo :: rest) = .ok (i, rest) ∧ i.base = b ∧ i.specifier = some (hi ++ lo))

/-- R72, under the default map (PRESUMED, log 1): the illegal opcode values are these eighteen and no others. -/
def Obligations.IllegalOpcodesAreTheEighteen : Prop :=
  ∀ op : Byte,
    ((decode Config.default [op, 0, 0]).toOption.map fun d => d.1.wellFormed) =
      some (decide (op ∉ [0x29, 0x2A, 0x2B, 0x2C, 0x2D, 0x2E, 0x2F, 0x40, 0x43, 0x45, 0x46, 0x47,
        0x30, 0x48, 0xE0, 0xE8, 0xF0, 0xF8]))

/-- R8, R65, R78: the default map and mode codes (PRESUMED, logs 1 and 2) obey the structure the document fixes: 256
opcode values, each with a base operation, 28 of them without a specifier, and every mode with one code. -/
def Obligations.DefaultMapObeysTheStructure : Prop :=
  defaultOpcodeMap.obeysFields = true ∧ defaultModeCode.bijective = true ∧
  (defaultOpcodeMap.filter fun b => !b.requiresSpec).length = 28 ∧
  (defaultOpcodeMap.filter fun b => b.requiresSpec).length = 228 ∧
  (∀ m : AddrMode, defaultModeCode.variant m.code = m)

/-- A sanity statement: words written out from R66's patterns decode to the instructions they stand for (the map is
PRESUMED, log 1). -/
def Obligations.WrittenOutWordsDecode : Prop :=
  decodeTableWord 8 0b00000000 = some .stop ∧
  decodeTableWord 24 0b00110100_00010010_00010111 = some (.call .indexed 0x1234) ∧
  decodeTableWord 8 0b00011011 = some (.negr .x) ∧
  decodeTableWord 8 0b01011101 = some (.retn 5) ∧
  decodeTableWord 24 0b00000001_10000000_01000100 = some (.stro .stackRelativeDeferred 0x8001) ∧
  decodeTableWord 24 0b11101111_10111110_01111010 = some (.addr .x .indirect 0xBEEF) ∧
  decodeTableWord 24 0b00110000_00000000_11110001 = some (.stbyter .a .direct 0x0030)

/-! ### Reset -/

/-- The reset state (R27, R301). The values of IR and of the scratch are the spec's decision D20 (log 11), the empty image
and the empty input are the model's choice (log 9), MOVFLGA_UPPER is at its recommended value (log 5). -/
def Obligations.ResetGivesTheStatedValues : Prop :=
  State.reset.a = 0 ∧ State.reset.x = 0 ∧ State.reset.pc = 0 ∧ State.reset.sp = 0xFFFF ∧ State.reset.ir = 0 ∧
  State.reset.flags = { n := false, z := false, v := false, c := false } ∧
  State.reset.run = .running ∧ State.reset.err = .none ∧
  State.reset.spec = 0 ∧ State.reset.mode = none ∧ State.reset.operand = 0 ∧
  (∀ a : Word, Memory.read State.reset.mem a = 0) ∧
  State.reset.input = [] ∧ State.reset.output = [] ∧ State.reset.trace = [] ∧
  State.reset.cfg.continueOnInputExhaustion = false ∧ State.reset.cfg.traceEnabled = false ∧
  State.reset.cfg.loadSetsNZ = false ∧ State.reset.cfg.shiftSetsNZ = false ∧
  State.reset.cfg.retSpDirection = .sub ∧ State.reset.cfg.movflgaUpper = .any

/-- The invariant holds right after reset. -/
def Obligations.ResetMeetsTheInvariant : Prop := State.reset.Inv

/-- R302: reset with an image of at most 65536 bytes copies it from address 0, leaves 0x00 beyond it, keeps memory
canonical and gives everything else its reset value; a longer image is refused (D18, log 10). -/
def Obligations.ResetLoadsTheImage : Prop :=
  ∀ (cfg : Config) (image input : List Byte),
    (image.length ≤ 65536 → ∃ t : State,
      resetWith cfg image input = .next t ∧
      (∀ k : Nat, k < 65536 → Memory.read t.mem (BitVec.ofNat 16 k) = image.getD k 0) ∧
      t = { State.reset with mem := t.mem, input := input, cfg := cfg } ∧ t.Inv) ∧
    (65536 < image.length → resetWith cfg image input = .refused (.imageTooLong image.length))

/-! ### The cycle -/

/-- R130 to R135: a running machine whose bytes at PC decode to a well-formed instruction executes it, with IR loaded
first and, when tracing is enabled and the instruction raised no error, one trace line after it. -/
def Obligations.StepRunsTheDecodedInstruction : Prop :=
  ∀ (s : State) (i : Instr) (rest : List Byte),
    s.run = .running →
    decode s.cfg [Memory.read s.mem s.pc, Memory.read s.mem (s.pc + 1), Memory.read s.mem (s.pc + 2)]
      = .ok (i, rest) →
    i.wellFormed = true →
    (∀ t : State, exec i { s with ir := Memory.read s.mem s.pc } = .next t →
      step s = .next
        (if t.cfg.traceEnabled = true ∧ (t.run = .running ∨ t.err = .none) then
          { t with trace := t.trace ++ [
            { pc := t.pc, sp := t.sp, a := t.a, x := t.x, spec := t.spec, flags := t.flags, opcode := t.ir
              mnemonic := { base := i.base, reg := traceReg i, mode := traceMode i } }] }
         else t)) ∧
    (∀ f : Fault, exec i { s with ir := Memory.read s.mem s.pc } = .fault f → step s = .fault f)

/-- R17, R18, R282: a halted machine stays as it is (that the model answers with the same state is its choice, log 7), so
ERR never changes once it is set: from a state that meets the invariant, a state with an error steps to itself. -/
def Obligations.HaltedIsAbsorbing : Prop :=
  (∀ s : State, s.run = .halted → step s = .next s) ∧
  (∀ s : State, s.Inv → s.err ≠ .none → step s = .next s)

/-- R132, R272, R277: an instruction with an illegal mode raises DecodeError and writes nothing else; the step that
fetched it has loaded IR, left PC at the opcode and emitted no trace line. -/
def Obligations.IllegalModesRaiseDecodeError : Prop :=
  (∀ (i : Instr) (s : State), i.wellFormed = false →
    exec i s = .next { s with run := .halted, err := .decodeError }) ∧
  (∀ (s : State) (i : Instr) (rest : List Byte),
    s.run = .running →
    decode s.cfg [Memory.read s.mem s.pc, Memory.read s.mem (s.pc + 1), Memory.read s.mem (s.pc + 2)]
      = .ok (i, rest) →
    i.wellFormed = false →
    step s = .next { s with ir := Memory.read s.mem s.pc, run := .halted, err := .decodeError })

/-- R278: under an OPCODE_MAP with all its 256 entries no step raises InternalError, from any state. -/
def Obligations.InternalErrorIsNeverRaised : Prop :=
  ∀ s t : State, s.cfg.opcodeMap.length = 256 → s.err ≠ .internalError → step s = .next t →
    t.cfg.opcodeMap.length = 256 ∧ t.err ≠ .internalError

/-- Every step keeps the invariant: memory canonical, ERR None while running, N and Z never both 1. -/
def Obligations.StepKeepsTheInvariant : Prop :=
  ∀ s t : State, s.Inv → step s = .next t → t.Inv

/-- R130, R248: from every state a step completes, unless a running machine is at a string output and no byte of the whole
memory is zero; nothing is ever refused. That the step that never completes is a fault is the model's choice (log 8), and
so is the answer of a halted machine, of which the spec takes no step: the same state (log 7). -/
def Obligations.StepCompletesButForEndlessString : Prop :=
  ∀ s : State,
    (∃ t : State, step s = .next t) ∨
    (step s = .fault .stringOutputNeverEnds ∧ s.run = .running ∧
      (∀ a : Word, Memory.read s.mem a ≠ 0) ∧
      ∃ (mode : AddrMode) (spec : Word) (rest : List Byte),
        decode s.cfg (fetchBytes s) = .ok (.stro mode spec, rest))

/-- R19: no step changes the configuration. -/
def Obligations.StepKeepsTheConfiguration : Prop :=
  ∀ s t : State, step s = .next t → t.cfg = s.cfg

/-- R20, R15: IR and the decode scratch carry nothing from one instruction to the next: two states that differ only in
them (and in the trace) step to outcomes that differ only in them. -/
def Obligations.ScratchCarriesNothingOver : Prop :=
  ∀ s t : State, s.forgetScratch = t.forgetScratch →
    mapNext State.forgetScratch (step s) = mapNext State.forgetScratch (step t)

/-- R7, R288: tracing changes no other state: machines that differ only in the trace and in whether it is enabled step to
outcomes that differ only there. -/
def Obligations.TraceChangesNothingElse : Prop :=
  ∀ s t : State, s.forgetTrace = t.forgetTrace →
    mapNext State.forgetTrace (step s) = mapNext State.forgetTrace (step t)

/-- R241: the core never reads Out: a step with more bytes already written does the same after them. -/
def Obligations.OutputIsNeverRead : Prop :=
  ∀ (s : State) (o : List Byte), step (s.prependOutput o) = mapNext (State.prependOutput o) (step s)

/-! ### Who writes what -/

/-- R240, R241: only decimal and character input consume input, from its front; only the three output instructions write
output, after what is there. -/
def Obligations.OnlyIoInstructionsUseTheStreams : Prop :=
  ∀ (i : Instr) (s t : State), exec i s = .next t →
    (∃ consumed : List Byte, s.input = consumed ++ t.input) ∧
    (∃ written : List Byte, t.output = s.output ++ written) ∧
    (i.base ∉ [.deci, .chari] → t.input = s.input) ∧
    (i.base ∉ [.deco, .stro, .charo] → t.output = s.output)

/-- R16, the whole table of writers: an instruction writes the flags of its row, the p columns under their parameters, and
leaves the others untouched. -/
def Obligations.FlagsNotNamedAreUntouched : Prop :=
  ∀ (i : Instr) (s t : State), exec i s = .next t →
    (writesNZ s.cfg i.base = false → t.flags.n = s.flags.n ∧ t.flags.z = s.flags.z) ∧
    (writesV i.base = false → t.flags.v = s.flags.v) ∧
    (writesC i.base = false → t.flags.c = s.flags.c)

/-- R10 to R13, R48: A and X change only by an instruction whose register field selects them (A by the two moves too), SP
only by call, return and the stack adjusts, memory only by call, the stores and the two inputs. -/
def Obligations.RegistersAndMemoryHaveTheirWriters : Prop :=
  ∀ (i : Instr) (s t : State), exec i s = .next t →
    (traceReg i ≠ some .x → t.x = s.x) ∧
    (traceReg i ≠ some .a → i ≠ .movspa → i ≠ .movflga → t.a = s.a) ∧
    (i.base ∉ [.call, .retn, .addsp, .subsp] → t.sp = s.sp) ∧
    (i.base ∉ [.call, .str, .stbyter, .deci, .chari] → SameMemory s t)

/-- R17, R270: an instruction halts a running machine only as the list of conditions says, with the error kind it says. -/
def Obligations.HaltsOnlyForTheListedConditions : Prop :=
  ∀ (i : Instr) (s t : State), s.run = .running → exec i s = .next t →
    (t.run = .running ∧ t.err = s.err) ∨
    (t.run = .halted ∧ i = .stop ∧ t.err = s.err) ∨
    (t.run = .halted ∧ i = .rettr ∧ t.err = .unsupportedInstruction) ∨
    (t.run = .halted ∧ i.wellFormed = false ∧ t.err = .decodeError) ∨
    (t.run = .halted ∧ i.base = .deci ∧ (t.err = .inputFormatError ∨ t.err = .inputExhausted)) ∨
    (t.run = .halted ∧ i.base = .chari ∧ t.err = .inputExhausted)

/-! ### Control instructions -/

/-- R150, R160, R275: STOP and RETTR complete, and their own effect is to stop the machine, PC advanced: STOP with ERR as it
was, RETTR with UnsupportedInstruction and nothing popped. Nothing else changes. -/
def Obligations.StopAndRettrHaltTheMachine : Prop :=
  (∀ s : State, ∃ t : State, exec .stop s = .next t ∧
    t.run = .halted ∧ t.err = s.err ∧ t.pc = s.pc + 1 ∧
    SameRegs s t ∧ t.flags = s.flags ∧ SameMemory s t ∧ SameScratch s t ∧ SameStreams s t ∧ SameRest s t) ∧
  (∀ s : State, ∃ t : State, exec .rettr s = .next t ∧
    t.run = .halted ∧ t.err = .unsupportedInstruction ∧ t.pc = s.pc + 1 ∧
    SameRegs s t ∧ t.flags = s.flags ∧ SameMemory s t ∧ SameScratch s t ∧ SameStreams s t ∧ SameRest s t)

/-- R151 to R159, R165, R167: each branch completes, with its condition on N, Z, V or C, never N xor V. The reading of the
indexed target as the word read at Spec + X is the spec's decision D24. -/
def Obligations.BranchesFollowTheirConditions : Prop :=
  BranchesOn .br (fun _ => true) ∧
  BranchesOn .brle (fun f => f.z || f.n) ∧
  BranchesOn .brlt (fun f => f.n) ∧
  BranchesOn .breq (fun f => f.z) ∧
  BranchesOn .brne (fun f => !f.z) ∧
  BranchesOn .brge (fun f => !f.n) ∧
  BranchesOn .brgt (fun f => !f.n && !f.z) ∧
  BranchesOn .brv (fun f => f.v) ∧
  BranchesOn .brc (fun f => f.c)

/-- R161: CALL pushes the address of the next instruction at SP - 2, big-endian, and goes to the operand, which was
resolved before the push. -/
def Obligations.CallPushesTheReturnAddress : Prop :=
  ∀ (mode : BranchMode) (spec : Word) (s : State), ∃ t : State, exec (.call mode spec) s = .next t ∧
    t.sp = s.sp - 2 ∧ t.pc = branchTarget s mode spec ∧
    Memory.readWord t.mem (s.sp - 2) = s.pc + 3 ∧
    SameMemoryBut [s.sp - 2, s.sp - 1] s t ∧
    ScratchIs t spec (branchAddrMode mode) (branchTarget s mode spec) ∧
    t.a = s.a ∧ t.x = s.x ∧ t.flags = s.flags ∧ SameAround s t

/-- R162 under each value of RET_SP_DIRECTION (D5, log 4): SP moves by the count, the word there becomes PC, SP moves by
two more, and nothing else changes. -/
def Obligations.ReturnReadsItsAddressAtSp : Prop :=
  ∀ (count : BitVec 3) (s : State), ∃ t : State, exec (.retn count) s = .next t ∧
    (s.cfg.retSpDirection = .sub →
      t.pc = Memory.readWord s.mem (s.sp - count.setWidth 16) ∧ t.sp = s.sp - count.setWidth 16 - 2) ∧
    (s.cfg.retSpDirection = .add →
      t.pc = Memory.readWord s.mem (s.sp + count.setWidth 16) ∧ t.sp = s.sp + count.setWidth 16 + 2) ∧
    t.a = s.a ∧ t.x = s.x ∧ t.flags = s.flags ∧ SameMemory s t ∧ SameScratch s t ∧ SameAround s t

/-- R162, consequences (a) and (b): CALL and then RET0 come back to the instruction after the call under both readings;
SP ends 4 lower under SUB and where it was under ADD. -/
def Obligations.CallThenReturnComesBack : Prop :=
  ∀ (mode : BranchMode) (spec : Word) (s : State), ∃ t u : State,
    exec (.call mode spec) s = .next t ∧ exec (.retn 0) t = .next u ∧
    u.pc = s.pc + 3 ∧
    u.sp = (match s.cfg.retSpDirection with | .sub => s.sp - 4 | .add => s.sp) ∧
    SameMemoryBut [s.sp - 2, s.sp - 1] s u ∧ u.a = s.a ∧ u.x = s.x ∧ u.flags = s.flags

/-- R163, R164: the bare no-ops only advance PC by 1; the extended no-op in immediate mode reads its specifier into the
scratch and advances PC by 3. -/
def Obligations.NoOpsOnlyAdvance : Prop :=
  (∀ (nn : BitVec 2) (s : State), ∃ t : State, exec (.nopn nn) s = .next t ∧
    t.pc = s.pc + 1 ∧ SameRegs s t ∧ t.flags = s.flags ∧ SameMemory s t ∧ SameScratch s t ∧ SameAround s t) ∧
  (∀ (spec : Word) (s : State), ∃ t : State, exec (.nop .immediate spec) s = .next t ∧
    t.pc = s.pc + 3 ∧ ScratchIs t spec .immediate spec ∧
    SameRegs s t ∧ t.flags = s.flags ∧ SameMemory s t ∧ SameAround s t)

/-! ### Moves and single-register instructions -/

/-- R180: MOVSPA copies SP to A. -/
def Obligations.MovspaCopiesSp : Prop :=
  ∀ s : State, ∃ t : State, exec .movspa s = .next t ∧
    t.a = s.sp ∧ t.pc = s.pc + 1 ∧ SameRegsBut .a s t ∧ t.flags = s.flags ∧
    SameMemory s t ∧ SameScratch s t ∧ SameAround s t

/-- R181, R24: MOVFLGA packs the flags into A's low four bits; the upper twelve are kept or cleared under two values of
MOVFLGA_UPPER and of any value under the third (D6, log 5). -/
def Obligations.MovflgaPacksTheFlags : Prop :=
  ∀ s : State, ∃ t : State, exec .movflga s = .next t ∧
    t.a.getLsbD 0 = s.flags.c ∧ t.a.getLsbD 1 = s.flags.v ∧ t.a.getLsbD 2 = s.flags.z ∧ t.a.getLsbD 3 = s.flags.n ∧
    (s.cfg.movflgaUpper = .preserve → ∀ i : Nat, 4 ≤ i → t.a.getLsbD i = s.a.getLsbD i) ∧
    (s.cfg.movflgaUpper = .clear → ∀ i : Nat, 4 ≤ i → t.a.getLsbD i = false) ∧
    t.pc = s.pc + 1 ∧ SameRegsBut .a s t ∧ t.flags = s.flags ∧ SameMemory s t ∧ SameScratch s t ∧
    SameStreams s t ∧ SameRun s t ∧ t.ir = s.ir ∧ t.trace = s.trace ∧ t.cfg = s.cfg ∧
    t.freeIndex = (if s.cfg.movflgaUpper = .any then s.freeIndex + 1 else s.freeIndex)

/-- R182, R183, R188: NOTr and NEGr write their register and N, Z (NEGr V too, 1 exactly for 0x8000; D28). -/
def Obligations.ComplementAndNegateWriteTheRegister : Prop :=
  (∀ (r : Reg) (s : State), ∃ t : State, exec (.notr r) s = .next t ∧
    t.reg r = ~~~s.reg r ∧
    t.flags = { s.flags with n := (t.reg r).msb, z := decide (t.reg r = 0) } ∧
    t.pc = s.pc + 1 ∧ SameRegsBut r s t ∧ SameMemory s t ∧ SameScratch s t ∧ SameAround s t) ∧
  (∀ (r : Reg) (s : State), ∃ t : State, exec (.negr r) s = .next t ∧
    t.reg r = -s.reg r ∧
    t.flags = { s.flags with n := (t.reg r).msb, z := decide (s.reg r = 0), v := decide (s.reg r = 0x8000) } ∧
    t.pc = s.pc + 1 ∧ SameRegsBut r s t ∧ SameMemory s t ∧ SameScratch s t ∧ SameAround s t)

/-- R184, R185, R188: ASLr doubles the register modulo 65536 with C the old bit 15 and V a sign change; ASRr halves it as
a signed number, rounding down, with C the old bit 0; N and Z only under SHIFT_SETS_NZ (D4, log 3). -/
def Obligations.ShiftsWriteTheRegisterAndCarry : Prop :=
  (∀ (r : Reg) (s : State), ∃ t : State, exec (.aslr r) s = .next t ∧
    t.reg r = s.reg r + s.reg r ∧
    t.flags.c = (s.reg r).msb ∧ (t.flags.v = true ↔ (t.reg r).msb ≠ (s.reg r).msb) ∧
    (s.cfg.shiftSetsNZ = false → t.flags.n = s.flags.n ∧ t.flags.z = s.flags.z) ∧
    (s.cfg.shiftSetsNZ = true → t.flags.n = (t.reg r).msb ∧ t.flags.z = decide (t.reg r = 0)) ∧
    t.pc = s.pc + 1 ∧ SameRegsBut r s t ∧ SameMemory s t ∧ SameScratch s t ∧ SameAround s t) ∧
  (∀ (r : Reg) (s : State), ∃ t : State, exec (.asrr r) s = .next t ∧
    (t.reg r).toInt = (s.reg r).toInt / 2 ∧
    t.flags.c = (s.reg r).getLsbD 0 ∧ t.flags.v = s.flags.v ∧
    (s.cfg.shiftSetsNZ = false → t.flags.n = s.flags.n ∧ t.flags.z = s.flags.z) ∧
    (s.cfg.shiftSetsNZ = true → t.flags.n = (t.reg r).msb ∧ t.flags.z = decide (t.reg r = 0)) ∧
    t.pc = s.pc + 1 ∧ SameRegsBut r s t ∧ SameMemory s t ∧ SameScratch s t ∧ SameAround s t)

/-- R186, R187, R188: ROLr and RORr rotate the register through C and write no other flag. -/
def Obligations.RotatesWriteTheRegisterAndCarry : Prop :=
  (∀ (r : Reg) (s : State), ∃ t : State, exec (.rolr r) s = .next t ∧
    (t.reg r).toNat = (2 * (s.reg r).toNat + s.flags.c.toNat) % 65536 ∧
    t.flags = { s.flags with c := (s.reg r).msb } ∧
    t.pc = s.pc + 1 ∧ SameRegsBut r s t ∧ SameMemory s t ∧ SameScratch s t ∧ SameAround s t) ∧
  (∀ (r : Reg) (s : State), ∃ t : State, exec (.rorr r) s = .next t ∧
    (t.reg r).toNat = (s.reg r).toNat / 2 + 32768 * s.flags.c.toNat ∧
    t.flags = { s.flags with c := (s.reg r).getLsbD 0 } ∧
    t.pc = s.pc + 1 ∧ SameRegsBut r s t ∧ SameMemory s t ∧ SameScratch s t ∧ SameAround s t)

/-! ### Loads and stores -/

/-- R200, R201, R204: LDr copies the operand, LDBYTEr its high byte zero-extended over the whole register; N and Z only
under LOAD_SETS_NZ (D4, log 3). -/
def Obligations.LoadsCopyTheOperand : Prop :=
  (∀ (r : Reg) (mode : AddrMode) (spec : Word) (s : State), ∃ t : State, exec (.ldr r mode spec) s = .next t ∧
    t.reg r = s.valueOf mode spec ∧
    (s.cfg.loadSetsNZ = false → t.flags = s.flags) ∧
    (s.cfg.loadSetsNZ = true → t.flags = { s.flags with n := (t.reg r).msb, z := decide (t.reg r = 0) }) ∧
    t.pc = s.pc + 3 ∧ ScratchIs t spec mode (s.valueOf mode spec) ∧
    SameRegsBut r s t ∧ SameMemory s t ∧ SameAround s t) ∧
  (∀ (r : Reg) (mode : AddrMode) (spec : Word) (s : State), ∃ t : State, exec (.ldbyter r mode spec) s = .next t ∧
    (t.reg r).toNat = (s.valueOf mode spec).toNat / 256 ∧
    (s.cfg.loadSetsNZ = false → t.flags = s.flags) ∧
    (s.cfg.loadSetsNZ = true → t.flags = { s.flags with n := false, z := decide (t.reg r = 0) }) ∧
    t.pc = s.pc + 3 ∧ ScratchIs t spec mode (s.valueOf mode spec) ∧
    SameRegsBut r s t ∧ SameMemory s t ∧ SameAround s t)

/-- R202, R204: STr stores its register's word at the resolved address and changes no other byte. -/
def Obligations.StoreWritesTheWordAtItsAddress : Prop :=
  ∀ (r : Reg) (mode : AddrMode) (spec : Word) (s : State) (ea : Word), s.addressOf mode spec = some ea →
    ∃ t : State, exec (.str r mode spec) s = .next t ∧
      Memory.readWord t.mem ea = s.reg r ∧ SameMemoryBut [ea, ea + 1] s t ∧
      t.pc = s.pc + 3 ∧ ScratchIs t spec mode ea ∧ SameRegs s t ∧ t.flags = s.flags ∧ SameAround s t

/-- R203, R204: STBYTEr stores its register's high byte in the one byte at the resolved address (D7) and changes no other,
and a store onto the next opcode is what the next fetch reads (R52). -/
def Obligations.StoreByteWritesTheHighByte : Prop :=
  ∀ (r : Reg) (mode : AddrMode) (spec : Word) (s : State) (ea : Word), s.addressOf mode spec = some ea →
    ∃ t : State, exec (.stbyter r mode spec) s = .next t ∧
      (Memory.read t.mem ea).toNat = (s.reg r).toNat / 256 ∧ SameMemoryBut [ea] s t ∧
      (ea = s.pc + 3 → (fetchBytes t).head? = some (hiByte (s.reg r))) ∧
      t.pc = s.pc + 3 ∧ ScratchIs t spec mode ea ∧ SameRegs s t ∧ t.flags = s.flags ∧ SameAround s t

/-! ### Arithmetic and logic -/

/-- R220, R221, R224, R227: ADDr and SUBr write the sum or difference and all four flags, CPr the flags of the difference
alone; the operand and the left operand are those of the start of the instruction. -/
def Obligations.AddSubtractCompareUpdateAllFlags : Prop :=
  (∀ (r : Reg) (mode : AddrMode) (spec : Word) (s : State), ∃ t : State, exec (.addr r mode spec) s = .next t ∧
    t.reg r = s.reg r + s.valueOf mode spec ∧
    t.flags = (add16 (s.reg r) (s.valueOf mode spec)).flags ∧
    t.pc = s.pc + 3 ∧ ScratchIs t spec mode (s.valueOf mode spec) ∧
    SameRegsBut r s t ∧ SameMemory s t ∧ SameAround s t) ∧
  (∀ (r : Reg) (mode : AddrMode) (spec : Word) (s : State), ∃ t : State, exec (.subr r mode spec) s = .next t ∧
    t.reg r = s.reg r - s.valueOf mode spec ∧
    t.flags = (sub16 (s.reg r) (s.valueOf mode spec)).flags ∧
    t.pc = s.pc + 3 ∧ ScratchIs t spec mode (s.valueOf mode spec) ∧
    SameRegsBut r s t ∧ SameMemory s t ∧ SameAround s t) ∧
  (∀ (r : Reg) (mode : AddrMode) (spec : Word) (s : State), ∃ t : State, exec (.cpr r mode spec) s = .next t ∧
    t.flags = (sub16 (s.reg r) (s.valueOf mode spec)).flags ∧
    t.pc = s.pc + 3 ∧ ScratchIs t spec mode (s.valueOf mode spec) ∧
    SameRegs s t ∧ SameMemory s t ∧ SameAround s t)

/-- R222, R223, R227: ANDr and ORr write the bitwise result and N, Z alone. -/
def Obligations.AndOrUpdateNAndZ : Prop :=
  (∀ (r : Reg) (mode : AddrMode) (spec : Word) (s : State), ∃ t : State, exec (.andr r mode spec) s = .next t ∧
    t.reg r = s.reg r &&& s.valueOf mode spec ∧
    t.flags = { s.flags with n := (t.reg r).msb, z := decide (t.reg r = 0) } ∧
    t.pc = s.pc + 3 ∧ ScratchIs t spec mode (s.valueOf mode spec) ∧
    SameRegsBut r s t ∧ SameMemory s t ∧ SameAround s t) ∧
  (∀ (r : Reg) (mode : AddrMode) (spec : Word) (s : State), ∃ t : State, exec (.orr r mode spec) s = .next t ∧
    t.reg r = s.reg r ||| s.valueOf mode spec ∧
    t.flags = { s.flags with n := (t.reg r).msb, z := decide (t.reg r = 0) } ∧
    t.pc = s.pc + 3 ∧ ScratchIs t spec mode (s.valueOf mode spec) ∧
    SameRegsBut r s t ∧ SameMemory s t ∧ SameAround s t)

/-- R225, R226, R227: the stack adjusts move SP by the operand, resolved with the old SP, and write all four flags. -/
def Obligations.StackAdjustsMoveSp : Prop :=
  (∀ (mode : AddrMode) (spec : Word) (s : State), ∃ t : State, exec (.addsp mode spec) s = .next t ∧
    t.sp = s.sp + s.valueOf mode spec ∧ t.flags = (add16 s.sp (s.valueOf mode spec)).flags ∧
    t.pc = s.pc + 3 ∧ ScratchIs t spec mode (s.valueOf mode spec) ∧
    t.a = s.a ∧ t.x = s.x ∧ SameMemory s t ∧ SameAround s t) ∧
  (∀ (mode : AddrMode) (spec : Word) (s : State), ∃ t : State, exec (.subsp mode spec) s = .next t ∧
    t.sp = s.sp - s.valueOf mode spec ∧ t.flags = (sub16 s.sp (s.valueOf mode spec)).flags ∧
    t.pc = s.pc + 3 ∧ ScratchIs t spec mode (s.valueOf mode spec) ∧
    t.a = s.a ∧ t.x = s.x ∧ SameMemory s t ∧ SameAround s t)

/-! ### Input and output -/

/-- R244: what the decimal reader makes of a first byte that is a digit, of a minus, of anything else and of an exhausted
stream; the byte that ends a number is consumed (the spec's decisions D9 to D12, log 16). -/
def Obligations.DecimalReaderReadsANumber : Prop :=
  (∀ (cont : Bool) (digits rest : List Byte) (stop : Byte),
    digits.all isDigit = true → isDigit stop = false →
      (digits ≠ [] → readDecimal cont (digits ++ stop :: rest) = (.ok (digitsValue digits : Int), rest)) ∧
      (digits ≠ [] → readDecimal cont digits = (.ok (digitsValue digits : Int), [])) ∧
      readDecimal cont (0x2D :: (digits ++ stop :: rest)) = (.ok (-(digitsValue digits : Int)), rest) ∧
      readDecimal cont (0x2D :: digits) = (.ok (-(digitsValue digits : Int)), [])) ∧
  (∀ (cont : Bool) (b : Byte) (rest : List Byte),
    isDigit b = false → b ≠ 0x2D → readDecimal cont (b :: rest) = (.error .inputFormatError, rest)) ∧
  readDecimal false [] = (.error .inputExhausted, []) ∧ readDecimal true [] = (.error .inputFormatError, [])

/-- R245: when the reader gives a number, DECI completes: the truncated word is stored, V tells whether the number is out of
range, N and Z are those of the word (D11), C is kept. -/
def Obligations.DecimalInputStoresTheNumber : Prop :=
  ∀ (mode : AddrMode) (spec : Word) (s : State) (ea : Word) (val : Int) (rest : List Byte),
    s.addressOf mode spec = some ea →
    readDecimal s.cfg.continueOnInputExhaustion s.input = (.ok val, rest) →
    ∃ t : State, exec (.deci mode spec) s = .next t ∧
      Memory.readWord t.mem ea = BitVec.ofInt 16 val ∧ SameMemoryBut [ea, ea + 1] s t ∧
      t.flags.n = (BitVec.ofInt 16 val).msb ∧ t.flags.z = decide (BitVec.ofInt 16 val = 0) ∧
      (t.flags.v = true ↔ val < -32768 ∨ 32767 < val) ∧ t.flags.c = s.flags.c ∧
      t.input = rest ∧ t.output = s.output ∧
      t.pc = s.pc + 3 ∧ ScratchIs t spec mode ea ∧ SameRegs s t ∧ SameRun s t ∧ SameRest s t

/-- R244, R251, R273, R274, R277: where DECI and CHARI trap: the error kind, PC advanced, the bytes consumed gone, and no
flag, register or memory byte written (D12, D16). -/
def Obligations.InputErrorsWriteNothing : Prop :=
  (∀ (mode : AddrMode) (spec : Word) (s : State) (ea : Word) (k : ErrKind) (rest : List Byte),
    s.addressOf mode spec = some ea →
    readDecimal s.cfg.continueOnInputExhaustion s.input = (.error k, rest) →
    exec (.deci mode spec) s = .next
      { s with pc := s.pc + 3, spec := spec, mode := some mode, operand := ea, input := rest,
               run := .halted, err := k }) ∧
  (∀ (mode : AddrMode) (spec : Word) (s : State) (ea : Word),
    s.addressOf mode spec = some ea → s.input = [] → s.cfg.continueOnInputExhaustion = false →
    exec (.chari mode spec) s = .next
      { s with pc := s.pc + 3, spec := spec, mode := some mode, operand := ea,
               run := .halted, err := .inputExhausted })

/-- R250, R251: CHARI completes with the next byte of input, or with a zero byte on an exhausted stream when it is
configured to go on; one byte of memory is written, at the address (D8). -/
def Obligations.CharacterInputStoresOneByte : Prop :=
  ∀ (mode : AddrMode) (spec : Word) (s : State) (ea : Word) (b : Byte) (rest : List Byte),
    s.addressOf mode spec = some ea →
    (s.input = b :: rest ∨ (s.input = [] ∧ rest = [] ∧ b = 0 ∧ s.cfg.continueOnInputExhaustion = true)) →
    ∃ t : State, exec (.chari mode spec) s = .next t ∧
      Memory.read t.mem ea = b ∧ SameMemoryBut [ea] s t ∧ t.input = rest ∧ t.output = s.output ∧
      t.pc = s.pc + 3 ∧ ScratchIs t spec mode ea ∧ SameRegs s t ∧ t.flags = s.flags ∧ SameRun s t ∧ SameRest s t

/-- R246, R252: DECO appends the decimal text of the operand to Out, CHARO its high byte, and they change nothing else. -/
def Obligations.DecimalAndCharacterOutputAppend : Prop :=
  (∀ (mode : AddrMode) (spec : Word) (s : State), ∃ t : State, exec (.deco mode spec) s = .next t ∧
    t.output = s.output ++ decimalText (s.valueOf mode spec) ∧ t.input = s.input ∧
    t.pc = s.pc + 3 ∧ ScratchIs t spec mode (s.valueOf mode spec) ∧
    SameRegs s t ∧ t.flags = s.flags ∧ SameMemory s t ∧ SameRun s t ∧ SameRest s t) ∧
  (∀ (mode : AddrMode) (spec : Word) (s : State), ∃ t : State, exec (.charo mode spec) s = .next t ∧
    t.output = s.output ++ [hiByte (s.valueOf mode spec)] ∧ t.input = s.input ∧
    t.pc = s.pc + 3 ∧ ScratchIs t spec mode (s.valueOf mode spec) ∧
    SameRegs s t ∧ t.flags = s.flags ∧ SameMemory s t ∧ SameRun s t ∧ SameRest s t)

/-- R246 with D13: the decimal text is a minus for a negative value and then digits alone, at least one, the first no zero
unless it is the only one, that stand for the magnitude. -/
def Obligations.DecimalTextIsShortest : Prop :=
  ∀ w : Word, ∃ digits : List Byte,
    decimalText w = (if w.toInt < 0 then 0x2D :: digits else digits) ∧
    digits ≠ [] ∧ digits.all isDigit = true ∧ digitsValue digits = w.toInt.natAbs ∧
    (digits.head? = some 0x30 → digits = [0x30])

/-- R244 and R246 together: what decimal output writes, decimal input reads back, with any byte after it that is no digit. -/
def Obligations.DecimalOutputReadsBack : Prop :=
  ∀ (cont : Bool) (w : Word) (stop : Byte) (rest : List Byte), isDigit stop = false →
    readDecimal cont (decimalText w ++ stop :: rest) = (.ok w.toInt, rest)

/-- R247: STRO appends the bytes from the resolved address up to the first zero byte, wrapping around memory, and changes
nothing else. -/
def Obligations.StringOutputWritesUpToTheZero : Prop :=
  ∀ (mode : AddrMode) (spec : Word) (s : State) (ea : Word) (n : Nat),
    mode.legalForString = true → s.addressOf mode spec = some ea → n < 65536 →
    (∀ k : Nat, k < n → Memory.read s.mem (ea + BitVec.ofNat 16 k) ≠ 0) →
    Memory.read s.mem (ea + BitVec.ofNat 16 n) = 0 →
    ∃ t : State, exec (.stro mode spec) s = .next t ∧
      t.output = s.output ++ (List.range n).map (fun k => Memory.read s.mem (ea + BitVec.ofNat 16 k)) ∧
      t.input = s.input ∧ t.pc = s.pc + 3 ∧ ScratchIs t spec mode ea ∧
      SameRegs s t ∧ t.flags = s.flags ∧ SameMemory s t ∧ SameRun s t ∧ SameRest s t

/-- R248: a legal STRO never ends exactly when no byte of memory is zero (the model's fault for it: log 8). -/
def Obligations.StringOutputEndsIffSomeByteIsZero : Prop :=
  ∀ (mode : AddrMode) (spec : Word) (s : State), mode.legalForString = true →
    (exec (.stro mode spec) s = .fault .stringOutputNeverEnds ↔ ∀ a : Word, Memory.read s.mem a ≠ 0)
end

