-- ==== Sys2Proof/Laws/State.lean ====
section
/-! SUPPORT. What each named update of the state leaves in each field. -/

namespace Sys2Proof.Machine

variable (s : State)

/-! ### setPc -/

@[simp] theorem State.setPc_a (v : Word) : (s.setPc v).a = s.a := rfl
@[simp] theorem State.setPc_x (v : Word) : (s.setPc v).x = s.x := rfl
@[simp] theorem State.setPc_pc (v : Word) : (s.setPc v).pc = v := rfl
@[simp] theorem State.setPc_sp (v : Word) : (s.setPc v).sp = s.sp := rfl
@[simp] theorem State.setPc_ir (v : Word) : (s.setPc v).ir = s.ir := rfl
@[simp] theorem State.setPc_flags (v : Word) : (s.setPc v).flags = s.flags := rfl
@[simp] theorem State.setPc_run (v : Word) : (s.setPc v).run = s.run := rfl
@[simp] theorem State.setPc_err (v : Word) : (s.setPc v).err = s.err := rfl
@[simp] theorem State.setPc_spec (v : Word) : (s.setPc v).spec = s.spec := rfl
@[simp] theorem State.setPc_mode (v : Word) : (s.setPc v).mode = s.mode := rfl
@[simp] theorem State.setPc_operand (v : Word) : (s.setPc v).operand = s.operand := rfl
@[simp] theorem State.setPc_mem (v : Word) : (s.setPc v).mem = s.mem := rfl
@[simp] theorem State.setPc_input (v : Word) : (s.setPc v).input = s.input := rfl
@[simp] theorem State.setPc_output (v : Word) : (s.setPc v).output = s.output := rfl
@[simp] theorem State.setPc_trace (v : Word) : (s.setPc v).trace = s.trace := rfl
@[simp] theorem State.setPc_cfg (v : Word) : (s.setPc v).cfg = s.cfg := rfl
@[simp] theorem State.setPc_freeIndex (v : Word) : (s.setPc v).freeIndex = s.freeIndex := rfl
@[simp] theorem State.setPc_reg (v : Word) (r : Reg) : (s.setPc v).reg r = s.reg r := by cases r <;> rfl

/-! ### advance -/

@[simp] theorem State.advance_a (k : Word) : (s.advance k).a = s.a := rfl
@[simp] theorem State.advance_x (k : Word) : (s.advance k).x = s.x := rfl
@[simp] theorem State.advance_pc (k : Word) : (s.advance k).pc = s.pc + k := rfl
@[simp] theorem State.advance_sp (k : Word) : (s.advance k).sp = s.sp := rfl
@[simp] theorem State.advance_ir (k : Word) : (s.advance k).ir = s.ir := rfl
@[simp] theorem State.advance_flags (k : Word) : (s.advance k).flags = s.flags := rfl
@[simp] theorem State.advance_run (k : Word) : (s.advance k).run = s.run := rfl
@[simp] theorem State.advance_err (k : Word) : (s.advance k).err = s.err := rfl
@[simp] theorem State.advance_spec (k : Word) : (s.advance k).spec = s.spec := rfl
@[simp] theorem State.advance_mode (k : Word) : (s.advance k).mode = s.mode := rfl
@[simp] theorem State.advance_operand (k : Word) : (s.advance k).operand = s.operand := rfl
@[simp] theorem State.advance_mem (k : Word) : (s.advance k).mem = s.mem := rfl
@[simp] theorem State.advance_input (k : Word) : (s.advance k).input = s.input := rfl
@[simp] theorem State.advance_output (k : Word) : (s.advance k).output = s.output := rfl
@[simp] theorem State.advance_trace (k : Word) : (s.advance k).trace = s.trace := rfl
@[simp] theorem State.advance_cfg (k : Word) : (s.advance k).cfg = s.cfg := rfl
@[simp] theorem State.advance_freeIndex (k : Word) : (s.advance k).freeIndex = s.freeIndex := rfl
@[simp] theorem State.advance_reg (k : Word) (r : Reg) : (s.advance k).reg r = s.reg r := by cases r <;> rfl

/-! ### setSp -/

@[simp] theorem State.setSp_a (v : Word) : (s.setSp v).a = s.a := rfl
@[simp] theorem State.setSp_x (v : Word) : (s.setSp v).x = s.x := rfl
@[simp] theorem State.setSp_pc (v : Word) : (s.setSp v).pc = s.pc := rfl
@[simp] theorem State.setSp_sp (v : Word) : (s.setSp v).sp = v := rfl
@[simp] theorem State.setSp_ir (v : Word) : (s.setSp v).ir = s.ir := rfl
@[simp] theorem State.setSp_flags (v : Word) : (s.setSp v).flags = s.flags := rfl
@[simp] theorem State.setSp_run (v : Word) : (s.setSp v).run = s.run := rfl
@[simp] theorem State.setSp_err (v : Word) : (s.setSp v).err = s.err := rfl
@[simp] theorem State.setSp_spec (v : Word) : (s.setSp v).spec = s.spec := rfl
@[simp] theorem State.setSp_mode (v : Word) : (s.setSp v).mode = s.mode := rfl
@[simp] theorem State.setSp_operand (v : Word) : (s.setSp v).operand = s.operand := rfl
@[simp] theorem State.setSp_mem (v : Word) : (s.setSp v).mem = s.mem := rfl
@[simp] theorem State.setSp_input (v : Word) : (s.setSp v).input = s.input := rfl
@[simp] theorem State.setSp_output (v : Word) : (s.setSp v).output = s.output := rfl
@[simp] theorem State.setSp_trace (v : Word) : (s.setSp v).trace = s.trace := rfl
@[simp] theorem State.setSp_cfg (v : Word) : (s.setSp v).cfg = s.cfg := rfl
@[simp] theorem State.setSp_freeIndex (v : Word) : (s.setSp v).freeIndex = s.freeIndex := rfl
@[simp] theorem State.setSp_reg (v : Word) (r : Reg) : (s.setSp v).reg r = s.reg r := by cases r <;> rfl

/-! ### setIr -/

@[simp] theorem State.setIr_a (v : Byte) : (s.setIr v).a = s.a := rfl
@[simp] theorem State.setIr_x (v : Byte) : (s.setIr v).x = s.x := rfl
@[simp] theorem State.setIr_pc (v : Byte) : (s.setIr v).pc = s.pc := rfl
@[simp] theorem State.setIr_sp (v : Byte) : (s.setIr v).sp = s.sp := rfl
@[simp] theorem State.setIr_ir (v : Byte) : (s.setIr v).ir = v := rfl
@[simp] theorem State.setIr_flags (v : Byte) : (s.setIr v).flags = s.flags := rfl
@[simp] theorem State.setIr_run (v : Byte) : (s.setIr v).run = s.run := rfl
@[simp] theorem State.setIr_err (v : Byte) : (s.setIr v).err = s.err := rfl
@[simp] theorem State.setIr_spec (v : Byte) : (s.setIr v).spec = s.spec := rfl
@[simp] theorem State.setIr_mode (v : Byte) : (s.setIr v).mode = s.mode := rfl
@[simp] theorem State.setIr_operand (v : Byte) : (s.setIr v).operand = s.operand := rfl
@[simp] theorem State.setIr_mem (v : Byte) : (s.setIr v).mem = s.mem := rfl
@[simp] theorem State.setIr_input (v : Byte) : (s.setIr v).input = s.input := rfl
@[simp] theorem State.setIr_output (v : Byte) : (s.setIr v).output = s.output := rfl
@[simp] theorem State.setIr_trace (v : Byte) : (s.setIr v).trace = s.trace := rfl
@[simp] theorem State.setIr_cfg (v : Byte) : (s.setIr v).cfg = s.cfg := rfl
@[simp] theorem State.setIr_freeIndex (v : Byte) : (s.setIr v).freeIndex = s.freeIndex := rfl
@[simp] theorem State.setIr_reg (v : Byte) (r : Reg) : (s.setIr v).reg r = s.reg r := by cases r <;> rfl

/-! ### setFlags -/

@[simp] theorem State.setFlags_a (f : Flags) : (s.setFlags f).a = s.a := rfl
@[simp] theorem State.setFlags_x (f : Flags) : (s.setFlags f).x = s.x := rfl
@[simp] theorem State.setFlags_pc (f : Flags) : (s.setFlags f).pc = s.pc := rfl
@[simp] theorem State.setFlags_sp (f : Flags) : (s.setFlags f).sp = s.sp := rfl
@[simp] theorem State.setFlags_ir (f : Flags) : (s.setFlags f).ir = s.ir := rfl
@[simp] theorem State.setFlags_flags (f : Flags) : (s.setFlags f).flags = f := rfl
@[simp] theorem State.setFlags_run (f : Flags) : (s.setFlags f).run = s.run := rfl
@[simp] theorem State.setFlags_err (f : Flags) : (s.setFlags f).err = s.err := rfl
@[simp] theorem State.setFlags_spec (f : Flags) : (s.setFlags f).spec = s.spec := rfl
@[simp] theorem State.setFlags_mode (f : Flags) : (s.setFlags f).mode = s.mode := rfl
@[simp] theorem State.setFlags_operand (f : Flags) : (s.setFlags f).operand = s.operand := rfl
@[simp] theorem State.setFlags_mem (f : Flags) : (s.setFlags f).mem = s.mem := rfl
@[simp] theorem State.setFlags_input (f : Flags) : (s.setFlags f).input = s.input := rfl
@[simp] theorem State.setFlags_output (f : Flags) : (s.setFlags f).output = s.output := rfl
@[simp] theorem State.setFlags_trace (f : Flags) : (s.setFlags f).trace = s.trace := rfl
@[simp] theorem State.setFlags_cfg (f : Flags) : (s.setFlags f).cfg = s.cfg := rfl
@[simp] theorem State.setFlags_freeIndex (f : Flags) : (s.setFlags f).freeIndex = s.freeIndex := rfl
@[simp] theorem State.setFlags_reg (f : Flags) (r : Reg) : (s.setFlags f).reg r = s.reg r := by cases r <;> rfl

/-! ### setScratch -/

@[simp] theorem State.setScratch_a (p : Word) (m : AddrMode) (o : Word) : (s.setScratch p m o).a = s.a := rfl
@[simp] theorem State.setScratch_x (p : Word) (m : AddrMode) (o : Word) : (s.setScratch p m o).x = s.x := rfl
@[simp] theorem State.setScratch_pc (p : Word) (m : AddrMode) (o : Word) : (s.setScratch p m o).pc = s.pc := rfl
@[simp] theorem State.setScratch_sp (p : Word) (m : AddrMode) (o : Word) : (s.setScratch p m o).sp = s.sp := rfl
@[simp] theorem State.setScratch_ir (p : Word) (m : AddrMode) (o : Word) : (s.setScratch p m o).ir = s.ir := rfl
@[simp] theorem State.setScratch_flags (p : Word) (m : AddrMode) (o : Word) : (s.setScratch p m o).flags = s.flags := rfl
@[simp] theorem State.setScratch_run (p : Word) (m : AddrMode) (o : Word) : (s.setScratch p m o).run = s.run := rfl
@[simp] theorem State.setScratch_err (p : Word) (m : AddrMode) (o : Word) : (s.setScratch p m o).err = s.err := rfl
@[simp] theorem State.setScratch_spec (p : Word) (m : AddrMode) (o : Word) : (s.setScratch p m o).spec = p := rfl
@[simp] theorem State.setScratch_mode (p : Word) (m : AddrMode) (o : Word) : (s.setScratch p m o).mode = some m := rfl
@[simp] theorem State.setScratch_operand (p : Word) (m : AddrMode) (o : Word) : (s.setScratch p m o).operand = o := rfl
@[simp] theorem State.setScratch_mem (p : Word) (m : AddrMode) (o : Word) : (s.setScratch p m o).mem = s.mem := rfl
@[simp] theorem State.setScratch_input (p : Word) (m : AddrMode) (o : Word) : (s.setScratch p m o).input = s.input := rfl
@[simp] theorem State.setScratch_output (p : Word) (m : AddrMode) (o : Word) : (s.setScratch p m o).output = s.output := rfl
@[simp] theorem State.setScratch_trace (p : Word) (m : AddrMode) (o : Word) : (s.setScratch p m o).trace = s.trace := rfl
@[simp] theorem State.setScratch_cfg (p : Word) (m : AddrMode) (o : Word) : (s.setScratch p m o).cfg = s.cfg := rfl
@[simp] theorem State.setScratch_freeIndex (p : Word) (m : AddrMode) (o : Word) : (s.setScratch p m o).freeIndex = s.freeIndex := rfl
@[simp] theorem State.setScratch_reg (p : Word) (m : AddrMode) (o : Word) (r : Reg) : (s.setScratch p m o).reg r = s.reg r := by cases r <;> rfl

/-! ### storeByte -/

@[simp] theorem State.storeByte_a (w : Word) (v : Byte) : (s.storeByte w v).a = s.a := rfl
@[simp] theorem State.storeByte_x (w : Word) (v : Byte) : (s.storeByte w v).x = s.x := rfl
@[simp] theorem State.storeByte_pc (w : Word) (v : Byte) : (s.storeByte w v).pc = s.pc := rfl
@[simp] theorem State.storeByte_sp (w : Word) (v : Byte) : (s.storeByte w v).sp = s.sp := rfl
@[simp] theorem State.storeByte_ir (w : Word) (v : Byte) : (s.storeByte w v).ir = s.ir := rfl
@[simp] theorem State.storeByte_flags (w : Word) (v : Byte) : (s.storeByte w v).flags = s.flags := rfl
@[simp] theorem State.storeByte_run (w : Word) (v : Byte) : (s.storeByte w v).run = s.run := rfl
@[simp] theorem State.storeByte_err (w : Word) (v : Byte) : (s.storeByte w v).err = s.err := rfl
@[simp] theorem State.storeByte_spec (w : Word) (v : Byte) : (s.storeByte w v).spec = s.spec := rfl
@[simp] theorem State.storeByte_mode (w : Word) (v : Byte) : (s.storeByte w v).mode = s.mode := rfl
@[simp] theorem State.storeByte_operand (w : Word) (v : Byte) : (s.storeByte w v).operand = s.operand := rfl
@[simp] theorem State.storeByte_mem (w : Word) (v : Byte) : (s.storeByte w v).mem = Memory.write s.mem w v := rfl
@[simp] theorem State.storeByte_input (w : Word) (v : Byte) : (s.storeByte w v).input = s.input := rfl
@[simp] theorem State.storeByte_output (w : Word) (v : Byte) : (s.storeByte w v).output = s.output := rfl
@[simp] theorem State.storeByte_trace (w : Word) (v : Byte) : (s.storeByte w v).trace = s.trace := rfl
@[simp] theorem State.storeByte_cfg (w : Word) (v : Byte) : (s.storeByte w v).cfg = s.cfg := rfl
@[simp] theorem State.storeByte_freeIndex (w : Word) (v : Byte) : (s.storeByte w v).freeIndex = s.freeIndex := rfl
@[simp] theorem State.storeByte_reg (w : Word) (v : Byte) (r : Reg) : (s.storeByte w v).reg r = s.reg r := by cases r <;> rfl

/-! ### storeWord -/

@[simp] theorem State.storeWord_a (w v : Word) : (s.storeWord w v).a = s.a := rfl
@[simp] theorem State.storeWord_x (w v : Word) : (s.storeWord w v).x = s.x := rfl
@[simp] theorem State.storeWord_pc (w v : Word) : (s.storeWord w v).pc = s.pc := rfl
@[simp] theorem State.storeWord_sp (w v : Word) : (s.storeWord w v).sp = s.sp := rfl
@[simp] theorem State.storeWord_ir (w v : Word) : (s.storeWord w v).ir = s.ir := rfl
@[simp] theorem State.storeWord_flags (w v : Word) : (s.storeWord w v).flags = s.flags := rfl
@[simp] theorem State.storeWord_run (w v : Word) : (s.storeWord w v).run = s.run := rfl
@[simp] theorem State.storeWord_err (w v : Word) : (s.storeWord w v).err = s.err := rfl
@[simp] theorem State.storeWord_spec (w v : Word) : (s.storeWord w v).spec = s.spec := rfl
@[simp] theorem State.storeWord_mode (w v : Word) : (s.storeWord w v).mode = s.mode := rfl
@[simp] theorem State.storeWord_operand (w v : Word) : (s.storeWord w v).operand = s.operand := rfl
@[simp] theorem State.storeWord_mem (w v : Word) : (s.storeWord w v).mem = Memory.writeWord s.mem w v := rfl
@[simp] theorem State.storeWord_input (w v : Word) : (s.storeWord w v).input = s.input := rfl
@[simp] theorem State.storeWord_output (w v : Word) : (s.storeWord w v).output = s.output := rfl
@[simp] theorem State.storeWord_trace (w v : Word) : (s.storeWord w v).trace = s.trace := rfl
@[simp] theorem State.storeWord_cfg (w v : Word) : (s.storeWord w v).cfg = s.cfg := rfl
@[simp] theorem State.storeWord_freeIndex (w v : Word) : (s.storeWord w v).freeIndex = s.freeIndex := rfl
@[simp] theorem State.storeWord_reg (w v : Word) (r : Reg) : (s.storeWord w v).reg r = s.reg r := by cases r <;> rfl

/-! ### put -/

@[simp] theorem State.put_a (l : List Byte) : (s.put l).a = s.a := rfl
@[simp] theorem State.put_x (l : List Byte) : (s.put l).x = s.x := rfl
@[simp] theorem State.put_pc (l : List Byte) : (s.put l).pc = s.pc := rfl
@[simp] theorem State.put_sp (l : List Byte) : (s.put l).sp = s.sp := rfl
@[simp] theorem State.put_ir (l : List Byte) : (s.put l).ir = s.ir := rfl
@[simp] theorem State.put_flags (l : List Byte) : (s.put l).flags = s.flags := rfl
@[simp] theorem State.put_run (l : List Byte) : (s.put l).run = s.run := rfl
@[simp] theorem State.put_err (l : List Byte) : (s.put l).err = s.err := rfl
@[simp] theorem State.put_spec (l : List Byte) : (s.put l).spec = s.spec := rfl
@[simp] theorem State.put_mode (l : List Byte) : (s.put l).mode = s.mode := rfl
@[simp] theorem State.put_operand (l : List Byte) : (s.put l).operand = s.operand := rfl
@[simp] theorem State.put_mem (l : List Byte) : (s.put l).mem = s.mem := rfl
@[simp] theorem State.put_input (l : List Byte) : (s.put l).input = s.input := rfl
@[simp] theorem State.put_output (l : List Byte) : (s.put l).output = s.output ++ l := rfl
@[simp] theorem State.put_trace (l : List Byte) : (s.put l).trace = s.trace := rfl
@[simp] theorem State.put_cfg (l : List Byte) : (s.put l).cfg = s.cfg := rfl
@[simp] theorem State.put_freeIndex (l : List Byte) : (s.put l).freeIndex = s.freeIndex := rfl
@[simp] theorem State.put_reg (l : List Byte) (r : Reg) : (s.put l).reg r = s.reg r := by cases r <;> rfl

/-! ### setInput -/

@[simp] theorem State.setInput_a (l : List Byte) : (s.setInput l).a = s.a := rfl
@[simp] theorem State.setInput_x (l : List Byte) : (s.setInput l).x = s.x := rfl
@[simp] theorem State.setInput_pc (l : List Byte) : (s.setInput l).pc = s.pc := rfl
@[simp] theorem State.setInput_sp (l : List Byte) : (s.setInput l).sp = s.sp := rfl
@[simp] theorem State.setInput_ir (l : List Byte) : (s.setInput l).ir = s.ir := rfl
@[simp] theorem State.setInput_flags (l : List Byte) : (s.setInput l).flags = s.flags := rfl
@[simp] theorem State.setInput_run (l : List Byte) : (s.setInput l).run = s.run := rfl
@[simp] theorem State.setInput_err (l : List Byte) : (s.setInput l).err = s.err := rfl
@[simp] theorem State.setInput_spec (l : List Byte) : (s.setInput l).spec = s.spec := rfl
@[simp] theorem State.setInput_mode (l : List Byte) : (s.setInput l).mode = s.mode := rfl
@[simp] theorem State.setInput_operand (l : List Byte) : (s.setInput l).operand = s.operand := rfl
@[simp] theorem State.setInput_mem (l : List Byte) : (s.setInput l).mem = s.mem := rfl
@[simp] theorem State.setInput_input (l : List Byte) : (s.setInput l).input = l := rfl
@[simp] theorem State.setInput_output (l : List Byte) : (s.setInput l).output = s.output := rfl
@[simp] theorem State.setInput_trace (l : List Byte) : (s.setInput l).trace = s.trace := rfl
@[simp] theorem State.setInput_cfg (l : List Byte) : (s.setInput l).cfg = s.cfg := rfl
@[simp] theorem State.setInput_freeIndex (l : List Byte) : (s.setInput l).freeIndex = s.freeIndex := rfl
@[simp] theorem State.setInput_reg (l : List Byte) (r : Reg) : (s.setInput l).reg r = s.reg r := by cases r <;> rfl

/-! ### emitLine -/

@[simp] theorem State.emitLine_a (l : TraceLine) : (s.emitLine l).a = s.a := rfl
@[simp] theorem State.emitLine_x (l : TraceLine) : (s.emitLine l).x = s.x := rfl
@[simp] theorem State.emitLine_pc (l : TraceLine) : (s.emitLine l).pc = s.pc := rfl
@[simp] theorem State.emitLine_sp (l : TraceLine) : (s.emitLine l).sp = s.sp := rfl
@[simp] theorem State.emitLine_ir (l : TraceLine) : (s.emitLine l).ir = s.ir := rfl
@[simp] theorem State.emitLine_flags (l : TraceLine) : (s.emitLine l).flags = s.flags := rfl
@[simp] theorem State.emitLine_run (l : TraceLine) : (s.emitLine l).run = s.run := rfl
@[simp] theorem State.emitLine_err (l : TraceLine) : (s.emitLine l).err = s.err := rfl
@[simp] theorem State.emitLine_spec (l : TraceLine) : (s.emitLine l).spec = s.spec := rfl
@[simp] theorem State.emitLine_mode (l : TraceLine) : (s.emitLine l).mode = s.mode := rfl
@[simp] theorem State.emitLine_operand (l : TraceLine) : (s.emitLine l).operand = s.operand := rfl
@[simp] theorem State.emitLine_mem (l : TraceLine) : (s.emitLine l).mem = s.mem := rfl
@[simp] theorem State.emitLine_input (l : TraceLine) : (s.emitLine l).input = s.input := rfl
@[simp] theorem State.emitLine_output (l : TraceLine) : (s.emitLine l).output = s.output := rfl
@[simp] theorem State.emitLine_trace (l : TraceLine) : (s.emitLine l).trace = s.trace ++ [l] := rfl
@[simp] theorem State.emitLine_cfg (l : TraceLine) : (s.emitLine l).cfg = s.cfg := rfl
@[simp] theorem State.emitLine_freeIndex (l : TraceLine) : (s.emitLine l).freeIndex = s.freeIndex := rfl
@[simp] theorem State.emitLine_reg (l : TraceLine) (r : Reg) : (s.emitLine l).reg r = s.reg r := by cases r <;> rfl

/-! ### halt -/

@[simp] theorem State.halt_a : (s.halt).a = s.a := rfl
@[simp] theorem State.halt_x : (s.halt).x = s.x := rfl
@[simp] theorem State.halt_pc : (s.halt).pc = s.pc := rfl
@[simp] theorem State.halt_sp : (s.halt).sp = s.sp := rfl
@[simp] theorem State.halt_ir : (s.halt).ir = s.ir := rfl
@[simp] theorem State.halt_flags : (s.halt).flags = s.flags := rfl
@[simp] theorem State.halt_run : (s.halt).run = .halted := rfl
@[simp] theorem State.halt_err : (s.halt).err = s.err := rfl
@[simp] theorem State.halt_spec : (s.halt).spec = s.spec := rfl
@[simp] theorem State.halt_mode : (s.halt).mode = s.mode := rfl
@[simp] theorem State.halt_operand : (s.halt).operand = s.operand := rfl
@[simp] theorem State.halt_mem : (s.halt).mem = s.mem := rfl
@[simp] theorem State.halt_input : (s.halt).input = s.input := rfl
@[simp] theorem State.halt_output : (s.halt).output = s.output := rfl
@[simp] theorem State.halt_trace : (s.halt).trace = s.trace := rfl
@[simp] theorem State.halt_cfg : (s.halt).cfg = s.cfg := rfl
@[simp] theorem State.halt_freeIndex : (s.halt).freeIndex = s.freeIndex := rfl
@[simp] theorem State.halt_reg (r : Reg) : (s.halt).reg r = s.reg r := by cases r <;> rfl

/-! ### raise -/

@[simp] theorem State.raise_a (k : ErrKind) : (s.raise k).a = s.a := rfl
@[simp] theorem State.raise_x (k : ErrKind) : (s.raise k).x = s.x := rfl
@[simp] theorem State.raise_pc (k : ErrKind) : (s.raise k).pc = s.pc := rfl
@[simp] theorem State.raise_sp (k : ErrKind) : (s.raise k).sp = s.sp := rfl
@[simp] theorem State.raise_ir (k : ErrKind) : (s.raise k).ir = s.ir := rfl
@[simp] theorem State.raise_flags (k : ErrKind) : (s.raise k).flags = s.flags := rfl
@[simp] theorem State.raise_run (k : ErrKind) : (s.raise k).run = .halted := rfl
@[simp] theorem State.raise_err (k : ErrKind) : (s.raise k).err = k := rfl
@[simp] theorem State.raise_spec (k : ErrKind) : (s.raise k).spec = s.spec := rfl
@[simp] theorem State.raise_mode (k : ErrKind) : (s.raise k).mode = s.mode := rfl
@[simp] theorem State.raise_operand (k : ErrKind) : (s.raise k).operand = s.operand := rfl
@[simp] theorem State.raise_mem (k : ErrKind) : (s.raise k).mem = s.mem := rfl
@[simp] theorem State.raise_input (k : ErrKind) : (s.raise k).input = s.input := rfl
@[simp] theorem State.raise_output (k : ErrKind) : (s.raise k).output = s.output := rfl
@[simp] theorem State.raise_trace (k : ErrKind) : (s.raise k).trace = s.trace := rfl
@[simp] theorem State.raise_cfg (k : ErrKind) : (s.raise k).cfg = s.cfg := rfl
@[simp] theorem State.raise_freeIndex (k : ErrKind) : (s.raise k).freeIndex = s.freeIndex := rfl
@[simp] theorem State.raise_reg (k : ErrKind) (r : Reg) : (s.raise k).reg r = s.reg r := by cases r <;> rfl

/-! ### drawFree -/

@[simp] theorem State.drawFree_a : (s.drawFree).a = s.a := rfl
@[simp] theorem State.drawFree_x : (s.drawFree).x = s.x := rfl
@[simp] theorem State.drawFree_pc : (s.drawFree).pc = s.pc := rfl
@[simp] theorem State.drawFree_sp : (s.drawFree).sp = s.sp := rfl
@[simp] theorem State.drawFree_ir : (s.drawFree).ir = s.ir := rfl
@[simp] theorem State.drawFree_flags : (s.drawFree).flags = s.flags := rfl
@[simp] theorem State.drawFree_run : (s.drawFree).run = s.run := rfl
@[simp] theorem State.drawFree_err : (s.drawFree).err = s.err := rfl
@[simp] theorem State.drawFree_spec : (s.drawFree).spec = s.spec := rfl
@[simp] theorem State.drawFree_mode : (s.drawFree).mode = s.mode := rfl
@[simp] theorem State.drawFree_operand : (s.drawFree).operand = s.operand := rfl
@[simp] theorem State.drawFree_mem : (s.drawFree).mem = s.mem := rfl
@[simp] theorem State.drawFree_input : (s.drawFree).input = s.input := rfl
@[simp] theorem State.drawFree_output : (s.drawFree).output = s.output := rfl
@[simp] theorem State.drawFree_trace : (s.drawFree).trace = s.trace := rfl
@[simp] theorem State.drawFree_cfg : (s.drawFree).cfg = s.cfg := rfl
@[simp] theorem State.drawFree_freeIndex : (s.drawFree).freeIndex = s.freeIndex + 1 := rfl
@[simp] theorem State.drawFree_reg (r : Reg) : (s.drawFree).reg r = s.reg r := by cases r <;> rfl

/-! ### setReg -/

@[simp] theorem State.setReg_a_a (v : Word) : (s.setReg .a v).a = v := rfl
@[simp] theorem State.setReg_a_x (v : Word) : (s.setReg .a v).x = s.x := rfl
@[simp] theorem State.setReg_x_a (v : Word) : (s.setReg .x v).a = s.a := rfl
@[simp] theorem State.setReg_x_x (v : Word) : (s.setReg .x v).x = v := rfl
@[simp] theorem State.setReg_pc (r : Reg) (v : Word) : (s.setReg r v).pc = s.pc := by cases r <;> rfl
@[simp] theorem State.setReg_sp (r : Reg) (v : Word) : (s.setReg r v).sp = s.sp := by cases r <;> rfl
@[simp] theorem State.setReg_ir (r : Reg) (v : Word) : (s.setReg r v).ir = s.ir := by cases r <;> rfl
@[simp] theorem State.setReg_flags (r : Reg) (v : Word) : (s.setReg r v).flags = s.flags := by cases r <;> rfl
@[simp] theorem State.setReg_run (r : Reg) (v : Word) : (s.setReg r v).run = s.run := by cases r <;> rfl
@[simp] theorem State.setReg_err (r : Reg) (v : Word) : (s.setReg r v).err = s.err := by cases r <;> rfl
@[simp] theorem State.setReg_spec (r : Reg) (v : Word) : (s.setReg r v).spec = s.spec := by cases r <;> rfl
@[simp] theorem State.setReg_mode (r : Reg) (v : Word) : (s.setReg r v).mode = s.mode := by cases r <;> rfl
@[simp] theorem State.setReg_operand (r : Reg) (v : Word) : (s.setReg r v).operand = s.operand := by cases r <;> rfl
@[simp] theorem State.setReg_mem (r : Reg) (v : Word) : (s.setReg r v).mem = s.mem := by cases r <;> rfl
@[simp] theorem State.setReg_input (r : Reg) (v : Word) : (s.setReg r v).input = s.input := by cases r <;> rfl
@[simp] theorem State.setReg_output (r : Reg) (v : Word) : (s.setReg r v).output = s.output := by cases r <;> rfl
@[simp] theorem State.setReg_trace (r : Reg) (v : Word) : (s.setReg r v).trace = s.trace := by cases r <;> rfl
@[simp] theorem State.setReg_cfg (r : Reg) (v : Word) : (s.setReg r v).cfg = s.cfg := by cases r <;> rfl
@[simp] theorem State.setReg_freeIndex (r : Reg) (v : Word) : (s.setReg r v).freeIndex = s.freeIndex := by cases r <;> rfl
@[simp] theorem State.setReg_reg_self (r : Reg) (v : Word) : (s.setReg r v).reg r = v := by cases r <;> rfl
theorem State.setReg_reg_ne (r q : Reg) (v : Word) (h : q ≠ r) : (s.setReg r v).reg q = s.reg q := by
  cases r <;> cases q <;> first | rfl | exact absurd rfl h
/-- A register write leaves every other register (R12). -/
theorem State.setReg_others (r : Reg) (v : Word) : ∀ q, q ≠ r → (s.setReg r v).reg q = s.reg q :=
  fun q h => State.setReg_reg_ne s r q v h
@[simp] theorem State.reg_a : s.reg .a = s.a := rfl
@[simp] theorem State.reg_x : s.reg .x = s.x := rfl

/-! ### The updates made of others -/

@[simp] theorem State.enterU_eq : s.enterU = s.advance 1 := rfl
@[simp] theorem State.enterS_eq (m : AddrMode) (p o : Word) : s.enterS m p o = (s.setScratch p m o).advance 3 := rfl
@[simp] theorem State.enterValue_eq (m : AddrMode) (p : Word) :
    s.enterValue m p = (s.setScratch p m (s.valueOf m p)).advance 3 := rfl
@[simp] theorem State.setNZ_eq (n z : Bool) : s.setNZ n z = s.setFlags { s.flags with n := n, z := z } := rfl
@[simp] theorem State.setV_eq (v : Bool) : s.setV v = s.setFlags { s.flags with v := v } := rfl
@[simp] theorem State.setC_eq (c : Bool) : s.setC c = s.setFlags { s.flags with c := c } := rfl
@[simp] theorem State.setNZWhen_true (w : Word) : s.setNZWhen true w = s.setNZ (negativeBit w) (zeroBit w) := rfl
@[simp] theorem State.setNZWhen_false (w : Word) : s.setNZWhen false w = s := rfl

/-! ### The resolver reads SP, X and memory alone (R90) -/

@[simp] theorem State.setIr_valueOf (v : Byte) (m : AddrMode) (p : Word) : (s.setIr v).valueOf m p = s.valueOf m p := rfl
@[simp] theorem State.setIr_addressOf (v : Byte) (m : AddrMode) (p : Word) :
    (s.setIr v).addressOf m p = s.addressOf m p := rfl

end Sys2Proof.Machine
end

