-- ==== Sys2Proof/Laws/Operands.lean ====
section
/-! SUPPORT. What the resolver and phase 3 can do. -/

namespace Sys2Proof.Machine

/-- R100: where a mode has an address, its value is the word there. -/
theorem valueOf_of_addressOf {s : State} {mode : AddrMode} {spec ea : Word} (h : s.addressOf mode spec = some ea) :
    s.valueOf mode spec = Memory.readWord s.mem ea := by
  simp only [State.addressOf] at h
  simp only [State.valueOf, resolveValue, h]

/-- R92: the immediate operand is the specifier. -/
@[simp] theorem valueOf_immediate (s : State) (spec : Word) : s.valueOf .immediate spec = spec := rfl

/-- R97: the indexed operand is the word at `Spec + X`. -/
@[simp] theorem valueOf_indexed (s : State) (spec : Word) :
    s.valueOf .indexed spec = Memory.readWord s.mem (spec + s.x) := rfl

/-- Only immediate has no address (R92, R100). -/
theorem addressOf_eq_none {s : State} {mode : AddrMode} {spec : Word} :
    s.addressOf mode spec = none ↔ mode = .immediate := by
  cases mode <;> simp [State.addressOf, resolveAddress]

/-- The modes R71 accepts are those with an address. -/
theorem legalForAddress_of_addressOf {s : State} {mode : AddrMode} {spec ea : Word}
    (h : s.addressOf mode spec = some ea) : mode.legalForAddress = true := by
  cases mode <;> first | rfl | (simp [State.addressOf, resolveAddress] at h)

/-- The modes R70 accepts have an address. -/
theorem addressOf_of_legalForString {mode : AddrMode} (s : State) (spec : Word) (h : mode.legalForString = true) :
    ∃ ea, s.addressOf mode spec = some ea := by
  cases mode <;> first | exact ⟨_, rfl⟩ | (simp [AddrMode.legalForString] at h)

/-- An address-strategy instruction in a legal mode is its effect after phase 3. -/
theorem withAddress_of_legal {s : State} {legal : AddrMode → Bool} {mode : AddrMode} {spec ea : Word}
    {effect : State → Host.Outcome State Fault Refusal} (hl : legal mode = true)
    (ha : s.addressOf mode spec = some ea) :
    s.withAddress legal mode spec effect = effect (s.enterS mode spec ea) := by
  simp only [State.withAddress, hl, ha]

/-- An address-strategy instruction in an illegal mode raises DecodeError and writes nothing else (R132). -/
theorem withAddress_of_illegal {s : State} {legal : AddrMode → Bool} {mode : AddrMode} {spec : Word}
    {effect : State → Host.Outcome State Fault Refusal} (hl : legal mode = false) :
    s.withAddress legal mode spec effect = .next (s.raise .decodeError) := by
  simp only [State.withAddress, hl]

/-- Everything an address-strategy instruction can do: raise DecodeError in a mode that is illegal or has no address, or
take its effect after phase 3. -/
theorem withAddress_cases (s : State) (legal : AddrMode → Bool) (mode : AddrMode) (spec : Word)
    (effect : State → Host.Outcome State Fault Refusal) :
    (s.withAddress legal mode spec effect = .next (s.raise .decodeError) ∧
      (legal mode = false ∨ s.addressOf mode spec = none)) ∨
    ∃ ea, legal mode = true ∧ s.addressOf mode spec = some ea ∧
      s.withAddress legal mode spec effect = effect (s.enterS mode spec ea) := by
  cases hl : legal mode
  · exact .inl ⟨withAddress_of_illegal hl, .inl rfl⟩
  · cases ha : s.addressOf mode spec with
    | none => exact .inl ⟨by simp only [State.withAddress, hl, ha], .inr rfl⟩
    | some ea => exact .inr ⟨ea, rfl, rfl, withAddress_of_legal hl ha⟩

/-- Where an address-strategy instruction has a next state, it raised DecodeError or took its effect after phase 3. -/
theorem withAddress_next {s t : State} {legal : AddrMode → Bool} {mode : AddrMode} {spec : Word}
    {effect : State → Host.Outcome State Fault Refusal} (h : s.withAddress legal mode spec effect = .next t) :
    t = s.raise .decodeError ∨
    ∃ ea, legal mode = true ∧ s.addressOf mode spec = some ea ∧ effect (s.enterS mode spec ea) = .next t := by
  rcases withAddress_cases s legal mode spec effect with ⟨h', _⟩ | ⟨ea, hl, ha, h'⟩
  · rw [h'] at h
    injection h with h
    exact .inl h.symm
  · exact .inr ⟨ea, hl, ha, h' ▸ h⟩

end Sys2Proof.Machine
end

