-- ==== Sys2Proof/Laws/Compare.lean ====
section
/-! SUPPORT. How an outcome passes through a map of the state. -/

namespace Sys2Proof.Machine

variable (f : State → State) (s : State)

@[simp] theorem mapNext_next : mapNext f (.next s) = .next (f s) := rfl
@[simp] theorem mapNext_fault (r : Fault) : mapNext f (.fault r) = .fault r := rfl
@[simp] theorem mapNext_refused (r : Refusal) : mapNext f (.refused r) = .refused r := rfl

/-- An address-strategy instruction passes through a map that keeps its address, commutes with DecodeError and passes
through its effect. -/
theorem withAddress_map {legal : AddrMode → Bool} {mode : AddrMode} {spec : Word}
    {effect : State → Host.Outcome State Fault Refusal} (ha : (f s).addressOf mode spec = s.addressOf mode spec)
    (hr : (f s).raise .decodeError = f (s.raise .decodeError))
    (he : ∀ ea, effect ((f s).enterS mode spec ea) = mapNext f (effect (s.enterS mode spec ea))) :
    (f s).withAddress legal mode spec effect = mapNext f (s.withAddress legal mode spec effect) := by
  unfold State.withAddress
  rw [ha]
  cases legal mode <;> cases s.addressOf mode spec <;> simp only [mapNext_next, hr]
  exact he _

end Sys2Proof.Machine
end

