-- ==== Sys2Proof/Laws/Memory.lean ====
section
/-! SUPPORT. What memory reads as after each write, and that every write keeps the canonical form. -/

namespace Sys2Proof.Machine

theorem Memory.lookup_erase (m : Memory) (n k : Nat) :
    Memory.lookup (Memory.erase m n) k = if k = n then unlistedByte else Memory.lookup m k := by
  induction m with
  | nil => simp [Memory.erase, Memory.lookup]
  | cons c rest ih =>
    obtain ⟨j, b⟩ := c
    by_cases hj : j = n
    · subst hj
      simp only [Memory.erase, if_pos, ih, Memory.lookup]
      by_cases hk : k = j
      · simp [hk]
      · simp [hk, Ne.symm hk]
    · simp only [Memory.erase, if_neg hj, Memory.lookup, ih]
      by_cases hjk : j = k
      · subst hjk; simp [hj]
      · simp [hjk]

theorem Memory.lookup_insert (m : Memory) (n k : Nat) (v : Byte) (hn : ∀ c ∈ m, c.1 ≠ n) :
    Memory.lookup (Memory.insert m n v) k = if k = n then v else Memory.lookup m k := by
  induction m with
  | nil => by_cases h : n = k <;> simp [Memory.insert, Memory.lookup, h, eq_comm]
  | cons c rest ih =>
    obtain ⟨j, b⟩ := c
    have hj : j ≠ n := hn (j, b) (by simp)
    have ih := ih fun c hc => hn c (by simp [hc])
    by_cases hlt : n < j
    · by_cases hk : k = n
      · subst hk; simp [Memory.insert, hlt, Memory.lookup]
      · simp [Memory.insert, hlt, Memory.lookup, hk, Ne.symm hk]
    · simp only [Memory.insert, if_neg hlt, Memory.lookup, ih]
      by_cases hjk : j = k
      · subst hjk; simp [hj]
      · simp [hjk]

theorem Memory.erase_ne (m : Memory) (n : Nat) : ∀ c ∈ Memory.erase m n, c.1 ≠ n := by
  induction m with
  | nil => simp [Memory.erase]
  | cons c rest ih =>
    obtain ⟨j, b⟩ := c
    by_cases hj : j = n
    · simpa [Memory.erase, hj] using ih
    · simp only [Memory.erase, if_neg hj, List.mem_cons]
      rintro c (rfl | hc)
      · exact hj
      · exact ih c hc

/-- R41, R43: a byte reads as last written; a write leaves every other byte alone. -/
theorem Memory.read_write (m : Memory) (a b : Word) (v : Byte) :
    Memory.read (Memory.write m a v) b = if b = a then v else Memory.read m b := by
  have key : (b.toNat = a.toNat) ↔ b = a := BitVec.toNat_inj
  by_cases hv : v = unlistedByte
  · simp only [Memory.write, if_pos hv, Memory.read, Memory.lookup_erase, key]
    by_cases hb : b = a <;> simp [hb, hv]
  · simp only [Memory.write, if_neg hv, Memory.read,
      Memory.lookup_insert _ _ _ _ (Memory.erase_ne m a.toNat), Memory.lookup_erase, key]
    by_cases hb : b = a <;> simp [hb]

@[simp] theorem Memory.read_write_self (m : Memory) (a : Word) (v : Byte) :
    Memory.read (Memory.write m a v) a = v := by simp [Memory.read_write]

theorem Memory.read_write_ne (m : Memory) (a b : Word) (v : Byte) (h : b ≠ a) :
    Memory.read (Memory.write m a v) b = Memory.read m b := by simp [Memory.read_write, h]

theorem Word.succ_ne (a : Word) : a + 1 ≠ a := by bv_omega

/-- R44: the two bytes a word write changes. -/
theorem Memory.read_writeWord (m : Memory) (a b v : Word) :
    Memory.read (Memory.writeWord m a v) b =
      if b = a + 1 then loByte v else if b = a then hiByte v else Memory.read m b := by
  simp only [Memory.writeWord, Memory.read_write]

@[simp] theorem joinBytes_hi_lo (w : Word) : joinBytes (hiByte w) (loByte w) = w := by
  apply BitVec.eq_of_getLsbD_eq
  intro i hi
  simp only [joinBytes, hiByte, loByte, BitVec.getLsbD_append, BitVec.getLsbD_extractLsb', Nat.zero_add]
  by_cases h : i < 8
  · simp [h]
  · simp [h, show i - 8 < 8 by omega, show 8 + (i - 8) = i by omega]

@[simp] theorem hiByte_joinBytes (h l : Byte) : hiByte (joinBytes h l) = h := by
  ext i hi
  simp only [joinBytes, hiByte, BitVec.getElem_extractLsb']
  rw [BitVec.getLsbD_append]
  simp only [show ¬ 8 + i < 8 by omega, show 8 + i - 8 = i by omega, if_false]
  exact BitVec.getLsbD_eq_getElem hi

@[simp] theorem loByte_joinBytes (h l : Byte) : loByte (joinBytes h l) = l := by
  ext i hi
  simp only [joinBytes, loByte, BitVec.getElem_extractLsb']
  rw [BitVec.getLsbD_append]
  simp only [Nat.zero_add, hi, if_true]
  exact BitVec.getLsbD_eq_getElem hi

/-- R42, R44: a word reads as last written, at every address, the top of memory too. -/
@[simp] theorem Memory.readWord_writeWord (m : Memory) (a v : Word) :
    Memory.readWord (Memory.writeWord m a v) a = v := by
  simp [Memory.readWord, Memory.read_writeWord]

theorem Memory.wf_cons (k : Nat) (b : Byte) (rest : Memory) :
    Memory.wf ((k, b) :: rest) = true ↔
      k < 65536 ∧ b ≠ unlistedByte ∧ (∀ c ∈ rest, k < c.1) ∧ Memory.wf rest = true := by
  simp [Memory.wf, and_assoc]

theorem Memory.mem_erase {m : Memory} {n : Nat} {c : Host.Cell} (h : c ∈ Memory.erase m n) : c ∈ m := by
  induction m with
  | nil => simp [Memory.erase] at h
  | cons d rest ih =>
    obtain ⟨j, b⟩ := d
    by_cases hj : j = n
    · simp only [Memory.erase, if_pos hj] at h
      exact List.mem_cons_of_mem _ (ih h)
    · simp only [Memory.erase, if_neg hj, List.mem_cons] at h
      rcases h with rfl | h
      · simp
      · exact List.mem_cons_of_mem _ (ih h)

theorem Memory.wf_erase {m : Memory} (n : Nat) (h : Memory.wf m = true) : Memory.wf (Memory.erase m n) = true := by
  induction m with
  | nil => simpa [Memory.erase] using h
  | cons d rest ih =>
    obtain ⟨j, b⟩ := d
    obtain ⟨hj, hb, hlt, hw⟩ := (Memory.wf_cons _ _ _).1 h
    by_cases hjn : j = n
    · simpa [Memory.erase, hjn] using ih hw
    · simp only [Memory.erase, if_neg hjn]
      exact (Memory.wf_cons _ _ _).2 ⟨hj, hb, fun c hc => hlt c (Memory.mem_erase hc), ih hw⟩

theorem Memory.mem_insert {m : Memory} {n : Nat} {v : Byte} {c : Host.Cell} (h : c ∈ Memory.insert m n v) :
    c = (n, v) ∨ c ∈ m := by
  induction m with
  | nil => simpa [Memory.insert] using h
  | cons d rest ih =>
    obtain ⟨j, b⟩ := d
    by_cases hlt : n < j
    · simpa [Memory.insert, hlt] using h
    · simp only [Memory.insert, if_neg hlt, List.mem_cons] at h ⊢
      rcases h with h | h
      · exact .inr (.inl h)
      · exact (ih h).imp id .inr

theorem Memory.wf_insert {m : Memory} {n : Nat} {v : Byte} (hn : n < 65536) (hv : v ≠ unlistedByte)
    (hne : ∀ c ∈ m, c.1 ≠ n) (h : Memory.wf m = true) : Memory.wf (Memory.insert m n v) = true := by
  induction m with
  | nil => exact (Memory.wf_cons _ _ _).2 ⟨hn, hv, by simp, rfl⟩
  | cons d rest ih =>
    obtain ⟨j, b⟩ := d
    obtain ⟨hj, hb, hlt, hw⟩ := (Memory.wf_cons _ _ _).1 h
    have hjn : j ≠ n := hne (j, b) (by simp)
    by_cases hnj : n < j
    · simp only [Memory.insert, if_pos hnj]
      refine (Memory.wf_cons _ _ _).2 ⟨hn, hv, ?_, h⟩
      rintro c hc
      rcases List.mem_cons.1 hc with rfl | hc
      · exact hnj
      · exact Nat.lt_trans hnj (hlt c hc)
    · simp only [Memory.insert, if_neg hnj]
      refine (Memory.wf_cons _ _ _).2 ⟨hj, hb, ?_, ih (fun c hc => hne c (by simp [hc])) hw⟩
      intro c hc
      rcases Memory.mem_insert hc with rfl | hc
      · show j < n; omega
      · exact hlt c hc

/-- A byte write keeps the canonical form. -/
theorem Memory.wf_write {m : Memory} (a : Word) (v : Byte) (h : Memory.wf m = true) :
    Memory.wf (Memory.write m a v) = true := by
  unfold Memory.write
  split
  · exact Memory.wf_erase _ h
  · exact Memory.wf_insert a.isLt ‹_› (Memory.erase_ne m _) (Memory.wf_erase _ h)

/-- A word write keeps the canonical form. -/
theorem Memory.wf_writeWord {m : Memory} (a v : Word) (h : Memory.wf m = true) :
    Memory.wf (Memory.writeWord m a v) = true := Memory.wf_write _ _ (Memory.wf_write _ _ h)

/-- A run of byte writes keeps the canonical form. -/
theorem Memory.wf_writeBytes {m : Memory} (a : Word) (l : List Byte) (h : Memory.wf m = true) :
    Memory.wf (Memory.writeBytes m a l) = true := by
  induction l generalizing m a with
  | nil => exact h
  | cons b rest ih => exact ih _ (Memory.wf_write _ _ h)

/-- Reading the unlisted: an empty memory is zero everywhere (R27). -/
@[simp] theorem Memory.read_nil (a : Word) : Memory.read [] a = unlistedByte := rfl

/-- Copying `l` from `a` upward leaves `l`'s bytes there and every other byte alone, when it does not lap itself (R302). -/
theorem Memory.read_writeBytes (m : Memory) (a b : Word) (l : List Byte) (hl : l.length ≤ 65536) :
    Memory.read (Memory.writeBytes m a l) b =
      if h : (b - a).toNat < l.length then l[(b - a).toNat] else Memory.read m b := by
  induction l generalizing m a with
  | nil => simp [Memory.writeBytes]
  | cons c rest ih =>
    have hl' : rest.length + 1 ≤ 65536 := by simpa using hl
    simp only [Memory.writeBytes]
    rw [ih (Memory.write m a c) (a + 1) (by omega), Memory.read_write]
    by_cases hba : b = a
    · subst hba
      have h1 : (b - (b + 1)).toNat = 65535 := by bv_omega
      have h2 : ¬ ((b - (b + 1)).toNat < rest.length) := by omega
      have h0 : (b - b).toNat = 0 := by bv_omega
      rw [dif_neg h2, if_pos rfl, dif_pos (by rw [h0]; simp)]
      simp only [h0, List.getElem_cons_zero]
    · have hne : (b - a).toNat ≠ 0 := by bv_omega
      have h1 : (b - (a + 1)).toNat = (b - a).toNat - 1 := by bv_omega
      have hlen : ((b - (a + 1)).toNat < rest.length) ↔ ((b - a).toNat < (c :: rest).length) := by
        rw [h1]; simp only [List.length_cons]; omega
      by_cases hin : (b - a).toNat < (c :: rest).length
      · have hin' := hlen.2 hin
        rw [dif_pos hin', dif_pos hin, List.getElem_cons, dif_neg hne]
        simp only [h1]
      · have hin' := fun h => hin (hlen.1 h)
        rw [dif_neg hin', dif_neg hin, if_neg hba]

/-- Memory right after reset is in its canonical form. -/
theorem Memory.wf_reset : Memory.wf State.reset.mem = true := rfl

end Sys2Proof.Machine
end

