-- ==== Sys2Proof/Laws/Control.lean ====
section
/-! SUPPORT. What a branch, the push of call and the SP updates of return leave. -/

namespace Sys2Proof.Machine

/-- A branch is phase 3 with PC at the operand or past the instruction (R165). -/
theorem branchWhen_eq (s : State) (cond : Bool) (mode : BranchMode) (spec : Word) :
    s.branchWhen cond mode spec =
      (s.setScratch spec (branchAddrMode mode) (s.valueOf (branchAddrMode mode) spec)).setPc
        (if cond then s.valueOf (branchAddrMode mode) spec else s.pc + 3) := by
  cases cond <;> rfl

/-- The push moves SP by 2 and stores the word there (R161). -/
@[simp] theorem push_eq (s : State) (w : Word) : s.push w = (s.setSp (s.sp - 2)).storeWord (s.sp - 2) w := rfl

/-- Where an SP update of return leaves SP (R162). -/
def retSp (d : RetSpDirection) (sp k : Word) : Word :=
  match d with
  | .sub => sp - k
  | .add => sp + k

/-- An SP update of return changes SP alone (R162). -/
theorem retAdjust_eq (s : State) (k : Word) : s.retAdjust k = s.setSp (retSp s.cfg.retSpDirection s.sp k) := by
  unfold State.retAdjust retSp
  cases s.cfg.retSpDirection <;> rfl

end Sys2Proof.Machine
end

