-- ==== Sys2Proof/Laws/Cycle.lean ====
section
/-! SUPPORT. What a step can do, said once. -/

namespace Sys2Proof.Machine

/-- A traced state is the state but for its trace. -/
theorem traced_eq (s : State) (i : Instr) : ∃ l, s.traced i = { s with trace := s.trace ++ l } := by
  unfold State.traced
  split
  · exact ⟨[s.traceLine i], rfl⟩
  · exact ⟨[], by simp⟩

/-- Everything a step can answer with a next state: a halted machine stays; an opcode without a base operation raises
InternalError; else the decoded instruction has its effect after the fetch, and perhaps a trace line follows. -/
theorem step_next {s t : State} (h : step s = .next t) :
    (s.run = .halted ∧ t = s) ∨
    (s.run = .running ∧ (∃ e, decode s.cfg (fetchBytes s) = .error e) ∧ t = s.fetch.raise .internalError) ∨
    (∃ i rest u, s.run = .running ∧ decode s.cfg (fetchBytes s) = .ok (i, rest) ∧
      exec i s.fetch = .next u ∧ t = u.traced i) := by
  unfold step cycle at h
  cases hr : s.run with
  | halted => simp only [hr] at h; injection h with h; exact .inl ⟨rfl, h.symm⟩
  | running =>
    simp only [hr] at h
    cases hd : decode s.cfg (fetchBytes s) with
    | error e => simp only [hd] at h; injection h with h; exact .inr (.inl ⟨rfl, ⟨e, rfl⟩, h.symm⟩)
    | ok p =>
      obtain ⟨i, rest⟩ := p
      simp only [hd] at h
      cases hx : exec i s.fetch with
      | next u =>
        simp only [hx, traceOutcome] at h
        injection h with h
        exact .inr (.inr ⟨i, rest, u, rfl, rfl, hx, h.symm⟩)
      | fault f => simp [hx, traceOutcome] at h
      | refused r => simp [hx, traceOutcome] at h

end Sys2Proof.Machine
end

