-- ==== Sys2Proof/Laws/Dispatch.lean ====
section
/-! SUPPORT. Each instruction's effect is its meaning, so that no proof unfolds the dispatch. -/

namespace Sys2Proof.Machine

variable (s : State)

@[simp] theorem exec_stop : exec .stop s = execStop s := rfl
@[simp] theorem exec_rettr : exec .rettr s = execRettr s := rfl
@[simp] theorem exec_movspa : exec .movspa s = execMovspa s := rfl
@[simp] theorem exec_movflga : exec .movflga s = execMovflga s := rfl
@[simp] theorem exec_br (mode : BranchMode) (spec : Word) : exec (.br mode spec) s = execBr mode spec s := rfl
@[simp] theorem exec_brle (mode : BranchMode) (spec : Word) : exec (.brle mode spec) s = execBrle mode spec s := rfl
@[simp] theorem exec_brlt (mode : BranchMode) (spec : Word) : exec (.brlt mode spec) s = execBrlt mode spec s := rfl
@[simp] theorem exec_breq (mode : BranchMode) (spec : Word) : exec (.breq mode spec) s = execBreq mode spec s := rfl
@[simp] theorem exec_brne (mode : BranchMode) (spec : Word) : exec (.brne mode spec) s = execBrne mode spec s := rfl
@[simp] theorem exec_brge (mode : BranchMode) (spec : Word) : exec (.brge mode spec) s = execBrge mode spec s := rfl
@[simp] theorem exec_brgt (mode : BranchMode) (spec : Word) : exec (.brgt mode spec) s = execBrgt mode spec s := rfl
@[simp] theorem exec_brv (mode : BranchMode) (spec : Word) : exec (.brv mode spec) s = execBrv mode spec s := rfl
@[simp] theorem exec_brc (mode : BranchMode) (spec : Word) : exec (.brc mode spec) s = execBrc mode spec s := rfl
@[simp] theorem exec_call (mode : BranchMode) (spec : Word) : exec (.call mode spec) s = execCall mode spec s := rfl
@[simp] theorem exec_notr (r : Reg) : exec (.notr r) s = execNotr r s := rfl
@[simp] theorem exec_negr (r : Reg) : exec (.negr r) s = execNegr r s := rfl
@[simp] theorem exec_aslr (r : Reg) : exec (.aslr r) s = execAslr r s := rfl
@[simp] theorem exec_asrr (r : Reg) : exec (.asrr r) s = execAsrr r s := rfl
@[simp] theorem exec_rolr (r : Reg) : exec (.rolr r) s = execRolr r s := rfl
@[simp] theorem exec_rorr (r : Reg) : exec (.rorr r) s = execRorr r s := rfl
@[simp] theorem exec_nopn (nn : BitVec 2) : exec (.nopn nn) s = execNopn nn s := rfl
@[simp] theorem exec_nop (mode : AddrMode) (spec : Word) : exec (.nop mode spec) s = execNop mode spec s := rfl
@[simp] theorem exec_deci (mode : AddrMode) (spec : Word) : exec (.deci mode spec) s = execDeci mode spec s := rfl
@[simp] theorem exec_deco (mode : AddrMode) (spec : Word) : exec (.deco mode spec) s = execDeco mode spec s := rfl
@[simp] theorem exec_stro (mode : AddrMode) (spec : Word) : exec (.stro mode spec) s = execStro mode spec s := rfl
@[simp] theorem exec_chari (mode : AddrMode) (spec : Word) : exec (.chari mode spec) s = execChari mode spec s := rfl
@[simp] theorem exec_charo (mode : AddrMode) (spec : Word) : exec (.charo mode spec) s = execCharo mode spec s := rfl
@[simp] theorem exec_retn (count : BitVec 3) : exec (.retn count) s = execRetn count s := rfl
@[simp] theorem exec_addsp (mode : AddrMode) (spec : Word) : exec (.addsp mode spec) s = execAddsp mode spec s := rfl
@[simp] theorem exec_subsp (mode : AddrMode) (spec : Word) : exec (.subsp mode spec) s = execSubsp mode spec s := rfl
@[simp] theorem exec_addr (r : Reg) (mode : AddrMode) (spec : Word) :
    exec (.addr r mode spec) s = execAddr r mode spec s := rfl
@[simp] theorem exec_subr (r : Reg) (mode : AddrMode) (spec : Word) :
    exec (.subr r mode spec) s = execSubr r mode spec s := rfl
@[simp] theorem exec_andr (r : Reg) (mode : AddrMode) (spec : Word) :
    exec (.andr r mode spec) s = execAndr r mode spec s := rfl
@[simp] theorem exec_orr (r : Reg) (mode : AddrMode) (spec : Word) :
    exec (.orr r mode spec) s = execOrr r mode spec s := rfl
@[simp] theorem exec_cpr (r : Reg) (mode : AddrMode) (spec : Word) :
    exec (.cpr r mode spec) s = execCpr r mode spec s := rfl
@[simp] theorem exec_ldr (r : Reg) (mode : AddrMode) (spec : Word) :
    exec (.ldr r mode spec) s = execLdr r mode spec s := rfl
@[simp] theorem exec_ldbyter (r : Reg) (mode : AddrMode) (spec : Word) :
    exec (.ldbyter r mode spec) s = execLdbyter r mode spec s := rfl
@[simp] theorem exec_str (r : Reg) (mode : AddrMode) (spec : Word) :
    exec (.str r mode spec) s = execStr r mode spec s := rfl
@[simp] theorem exec_stbyter (r : Reg) (mode : AddrMode) (spec : Word) :
    exec (.stbyter r mode spec) s = execStbyter r mode spec s := rfl

end Sys2Proof.Machine
end

