-- ==== Sys2Proof/Laws/Flags.lean ====
section
/-! SUPPORT. What the Arithmetic/Flag Unit's functions give, in terms of word arithmetic. -/

namespace Sys2Proof.Machine

/-- A word is never negative and zero at once. -/
theorem not_negative_and_zero (w : Word) : ¬(negativeBit w = true ∧ zeroBit w = true) := by
  rintro ⟨hn, hz⟩
  have : w = 0#16 := by simpa [zeroBit] using hz
  subst this
  simp [negativeBit] at hn

@[simp] theorem add16_result (lhs rhs : Word) : (add16 lhs rhs).result = lhs + rhs := by
  apply BitVec.eq_of_toNat_eq
  simp [add16, BitVec.toNat_add]

@[simp] theorem add16_n (lhs rhs : Word) : (add16 lhs rhs).flags.n = (lhs + rhs).msb := by
  rw [← add16_result]; rfl

@[simp] theorem add16_z (lhs rhs : Word) : (add16 lhs rhs).flags.z = decide (lhs + rhs = 0#16) := by
  rw [← add16_result]; rfl

@[simp] theorem add16_v (lhs rhs : Word) :
    (add16 lhs rhs).flags.v = ((lhs.msb == rhs.msb) && ((lhs + rhs).msb != lhs.msb)) := by
  rw [← add16_result]; rfl

@[simp] theorem add16_c (lhs rhs : Word) : (add16 lhs rhs).flags.c = decide (65536 ≤ lhs.toNat + rhs.toNat) := by
  have h1 := lhs.isLt
  have h2 := rhs.isLt
  simp only [add16, Nat.testBit_eq_decide_div_mod_eq]
  congr 1
  apply propext
  constructor <;> intro h <;> omega

@[simp] theorem neg16_eq (v : Word) : neg16 v = -v := (BitVec.neg_eq_not_add v).symm

theorem sub16_eq (lhs rhs : Word) : sub16 lhs rhs = add16 lhs (-rhs) := by rw [sub16, neg16_eq]

@[simp] theorem sub16_result (lhs rhs : Word) : (sub16 lhs rhs).result = lhs - rhs := by
  rw [sub16_eq, add16_result, BitVec.sub_eq_add_neg]

/-- The flags of a sum are never N and Z at once. -/
theorem add16_not_nz (lhs rhs : Word) : ¬((add16 lhs rhs).flags.n = true ∧ (add16 lhs rhs).flags.z = true) :=
  not_negative_and_zero _

/-- The flags of a difference are never N and Z at once. -/
theorem sub16_not_nz (lhs rhs : Word) : ¬((sub16 lhs rhs).flags.n = true ∧ (sub16 lhs rhs).flags.z = true) :=
  not_negative_and_zero _

@[simp] theorem not16_result (v : Word) : (not16 v).result = ~~~v := rfl
@[simp] theorem not16_n (v : Word) : (not16 v).n = (~~~v).msb := rfl
@[simp] theorem not16_z (v : Word) : (not16 v).z = decide (~~~v = 0#16) := rfl
@[simp] theorem and16_result (l r : Word) : (and16 l r).result = l &&& r := rfl
@[simp] theorem and16_n (l r : Word) : (and16 l r).n = (l &&& r).msb := rfl
@[simp] theorem and16_z (l r : Word) : (and16 l r).z = decide (l &&& r = 0#16) := rfl
@[simp] theorem or16_result (l r : Word) : (or16 l r).result = l ||| r := rfl
@[simp] theorem or16_n (l r : Word) : (or16 l r).n = (l ||| r).msb := rfl
@[simp] theorem or16_z (l r : Word) : (or16 l r).z = decide (l ||| r = 0#16) := rfl

@[simp] theorem negop16_result (v : Word) : (negop16 v).result = -v := neg16_eq v
@[simp] theorem negop16_n (v : Word) : (negop16 v).n = (-v).msb := by rw [← negop16_result]; rfl
@[simp] theorem negop16_z (v : Word) : (negop16 v).z = decide (-v = 0#16) := by rw [← negop16_result]; rfl
@[simp] theorem negop16_v (v : Word) : (negop16 v).v = decide (-v = 0x8000#16) := by rw [← negop16_result]; rfl

@[simp] theorem asl16_result (v : Word) : (asl16 v).result = v <<< 1 := rfl
@[simp] theorem asl16_c (v : Word) : (asl16 v).c = v.msb := rfl
@[simp] theorem asl16_v (v : Word) : (asl16 v).v = (v.msb ^^ (v <<< 1).msb) := rfl
@[simp] theorem asr16_c (v : Word) : (asr16 v).c = v.getLsbD 0 := rfl
@[simp] theorem rol16_c (v : Word) (cin : Bool) : (rol16 v cin).c = v.msb := rfl
@[simp] theorem ror16_c (v : Word) (cin : Bool) : (ror16 v cin).c = v.getLsbD 0 := rfl

/-- The bits of an arithmetic shift right. -/
theorem asr16_getLsbD (v : Word) (i : Nat) (hi : i < 16) :
    (asr16 v).result.getLsbD i = if i = 15 then v.getLsbD 15 else v.getLsbD (i + 1) := by
  interval_cases i <;> simp [asr16]

/-- The bits of a rotation left through carry. -/
theorem rol16_getLsbD (v : Word) (cin : Bool) (i : Nat) (hi : i < 16) :
    (rol16 v cin).result.getLsbD i = if i = 0 then cin else v.getLsbD (i - 1) := by
  cases cin <;> interval_cases i <;> simp [rol16]

/-- The bits of a rotation right through carry. -/
theorem ror16_getLsbD (v : Word) (cin : Bool) (i : Nat) (hi : i < 16) :
    (ror16 v cin).result.getLsbD i = if i = 15 then cin else v.getLsbD (i + 1) := by
  cases cin <;> interval_cases i <;> simp [ror16]

end Sys2Proof.Machine
end

