-- ==== Sys2Proof/Laws/InputOutput.lean ====
section
/-! SUPPORT. What the decimal reader, the decimal text and the string scan can do. -/

namespace Sys2Proof.Machine

/-- The reader's loop leaves an end of its input. -/
theorem readDigits_suffix (l : List Byte) (acc : Nat) : ∃ used, l = used ++ (readDigits l acc).2 := by
  induction l generalizing acc with
  | nil => exact ⟨[], rfl⟩
  | cons b rest ih =>
    unfold readDigits
    split
    · obtain ⟨used, h⟩ := ih (acc * 10 + digitValue b)
      exact ⟨b :: used, by rw [List.cons_append, ← h]⟩
    · exact ⟨[b], rfl⟩

/-- The decimal reader leaves an end of its input: it only consumes, from the front (R240). -/
theorem readDecimal_suffix (cont : Bool) (l : List Byte) : ∃ used, l = used ++ (readDecimal cont l).2 := by
  cases l with
  | nil => exact ⟨[], rfl⟩
  | cons b rest =>
    unfold readDecimal
    dsimp only
    split
    · obtain ⟨used, h⟩ := readDigits_suffix rest 0
      exact ⟨b :: used, by rw [List.cons_append, ← h]⟩
    · split
      · obtain ⟨used, h⟩ := readDigits_suffix rest (digitValue b)
        exact ⟨b :: used, by rw [List.cons_append, ← h]⟩
      · exact ⟨[b], rfl⟩

/-- The errors of the decimal reader (R244). -/
theorem readDecimal_error {cont : Bool} {l rest : List Byte} {k : ErrKind} (h : readDecimal cont l = (.error k, rest)) :
    k = .inputFormatError ∨ k = .inputExhausted := by
  cases l with
  | nil =>
    cases cont <;> simp only [readDecimal] at h <;> injection h with h _ <;> injection h with h <;> simp [← h]
  | cons b r =>
    unfold readDecimal at h
    dsimp only at h
    split at h
    · injection h with h _; cases h
    · split at h
      · injection h with h _; cases h
      · injection h with h _; injection h with h; exact .inl h.symm

/-- A scan that ends gives the bytes before the first zero byte (R247). -/
theorem scanString_some {m : Memory} {fuel : Nat} {a : Word} {bytes : List Byte} (h : scanString m fuel a = some bytes) :
    bytes.length < fuel ∧
    bytes = (List.range bytes.length).map (fun k => Memory.read m (a + BitVec.ofNat 16 k)) ∧
    (∀ k, k < bytes.length → Memory.read m (a + BitVec.ofNat 16 k) ≠ 0) ∧
    Memory.read m (a + BitVec.ofNat 16 bytes.length) = 0 := by
  induction fuel generalizing a bytes with
  | zero => simp [scanString] at h
  | succ fuel ih =>
    have shift : ∀ k, a + BitVec.ofNat 16 (k + 1) = (a + 1) + BitVec.ofNat 16 k := by
      intro k; apply BitVec.eq_of_toNat_eq; simp [BitVec.toNat_add]; omega
    unfold scanString at h
    dsimp only at h
    split at h
    · rename_i hz
      injection h with h
      subst h
      exact ⟨by simp, by simp, by simp, by simpa using hz⟩
    · rename_i hz
      split at h
      · cases h
      · rename_i rest hrest
        injection h with h
        subst h
        obtain ⟨h1, h2, h3, h4⟩ := ih hrest
        refine ⟨by simpa using h1, ?_, ?_, ?_⟩
        · simp only [List.length_cons, List.range_succ_eq_map, List.map_cons, List.map_map]
          congr 1
          · simp
          · conv_lhs => rw [h2]
            apply List.map_congr_left
            intro k _
            simp only [Function.comp, Nat.succ_eq_add_one, shift]
        · intro k hk
          cases k with
          | zero => simpa using hz
          | succ k => rw [shift]; exact h3 k (by simpa using hk)
        · rw [List.length_cons, shift]; exact h4

/-- A scan that does not end met no zero byte in its length (R248). -/
theorem scanString_none {m : Memory} {fuel : Nat} {a : Word} :
    scanString m fuel a = none ↔ ∀ k, k < fuel → Memory.read m (a + BitVec.ofNat 16 k) ≠ 0 := by
  induction fuel generalizing a with
  | zero => simp [scanString]
  | succ fuel ih =>
    have shift : ∀ k, a + BitVec.ofNat 16 (k + 1) = (a + 1) + BitVec.ofNat 16 k := by
      intro k; apply BitVec.eq_of_toNat_eq; simp [BitVec.toNat_add]; omega
    unfold scanString
    dsimp only
    split
    · rename_i hz
      simp only [reduceCtorEq, false_iff, not_forall]
      exact ⟨0, by omega, by simpa using hz⟩
    · rename_i hz
      refine Iff.trans (b := scanString m fuel (a + 1) = none) ?_ ?_
      · cases scanString m fuel (a + 1) <;> simp
      rw [ih]
      constructor
      · intro h k hk
        cases k with
        | zero => simpa using hz
        | succ k => rw [shift]; exact h k (by omega)
      · intro h k hk
        rw [← shift]; exact h (k + 1) (by omega)

end Sys2Proof.Machine
end

