-- ==== Sys2Proof/Laws/PerInstr.lean ====
section
/-! SUPPORT. Laws of every instruction as syntax, one lemma per constructor. -/

namespace Sys2Proof.Laws.EncodeLength

/-- The encoding of an instruction has the length of its format: one byte in format U, three in format S (R60, R76). -/
def Statement (i : Instr) : Prop := (encode i).length = i.length

theorem stop : Statement .stop := rfl
theorem rettr : Statement .rettr := rfl
theorem movspa : Statement .movspa := rfl
theorem movflga : Statement .movflga := rfl
theorem br (mode : BranchMode) (spec : Word) : Statement (.br mode spec) := rfl
theorem brle (mode : BranchMode) (spec : Word) : Statement (.brle mode spec) := rfl
theorem brlt (mode : BranchMode) (spec : Word) : Statement (.brlt mode spec) := rfl
theorem breq (mode : BranchMode) (spec : Word) : Statement (.breq mode spec) := rfl
theorem brne (mode : BranchMode) (spec : Word) : Statement (.brne mode spec) := rfl
theorem brge (mode : BranchMode) (spec : Word) : Statement (.brge mode spec) := rfl
theorem brgt (mode : BranchMode) (spec : Word) : Statement (.brgt mode spec) := rfl
theorem brv (mode : BranchMode) (spec : Word) : Statement (.brv mode spec) := rfl
theorem brc (mode : BranchMode) (spec : Word) : Statement (.brc mode spec) := rfl
theorem call (mode : BranchMode) (spec : Word) : Statement (.call mode spec) := rfl
theorem notr (r : Reg) : Statement (.notr r) := rfl
theorem negr (r : Reg) : Statement (.negr r) := rfl
theorem aslr (r : Reg) : Statement (.aslr r) := rfl
theorem asrr (r : Reg) : Statement (.asrr r) := rfl
theorem rolr (r : Reg) : Statement (.rolr r) := rfl
theorem rorr (r : Reg) : Statement (.rorr r) := rfl
theorem nopn (nn : BitVec 2) : Statement (.nopn nn) := rfl
theorem nop (mode : AddrMode) (spec : Word) : Statement (.nop mode spec) := rfl
theorem deci (mode : AddrMode) (spec : Word) : Statement (.deci mode spec) := rfl
theorem deco (mode : AddrMode) (spec : Word) : Statement (.deco mode spec) := rfl
theorem stro (mode : AddrMode) (spec : Word) : Statement (.stro mode spec) := rfl
theorem chari (mode : AddrMode) (spec : Word) : Statement (.chari mode spec) := rfl
theorem charo (mode : AddrMode) (spec : Word) : Statement (.charo mode spec) := rfl
theorem retn (count : BitVec 3) : Statement (.retn count) := rfl
theorem addsp (mode : AddrMode) (spec : Word) : Statement (.addsp mode spec) := rfl
theorem subsp (mode : AddrMode) (spec : Word) : Statement (.subsp mode spec) := rfl
theorem addr (r : Reg) (mode : AddrMode) (spec : Word) : Statement (.addr r mode spec) := rfl
theorem subr (r : Reg) (mode : AddrMode) (spec : Word) : Statement (.subr r mode spec) := rfl
theorem andr (r : Reg) (mode : AddrMode) (spec : Word) : Statement (.andr r mode spec) := rfl
theorem orr (r : Reg) (mode : AddrMode) (spec : Word) : Statement (.orr r mode spec) := rfl
theorem cpr (r : Reg) (mode : AddrMode) (spec : Word) : Statement (.cpr r mode spec) := rfl
theorem ldr (r : Reg) (mode : AddrMode) (spec : Word) : Statement (.ldr r mode spec) := rfl
theorem ldbyter (r : Reg) (mode : AddrMode) (spec : Word) : Statement (.ldbyter r mode spec) := rfl
theorem str (r : Reg) (mode : AddrMode) (spec : Word) : Statement (.str r mode spec) := rfl
theorem stbyter (r : Reg) (mode : AddrMode) (spec : Word) : Statement (.stbyter r mode spec) := rfl

end Sys2Proof.Laws.EncodeLength
end

