-- ==== Sys2Proof/Tests/Slice0.lean ====
section
/-! SUPPORT. Tests. The expected values are the spec's own: the encodings of 30_encoding.md R60 to R66, the vectors of
95_test_vectors.md (named in each docstring) and the truth table of its section 2.4. At the end, for every statement with
hypotheses, a concrete state and operands that meet them. -/

namespace Sys2Proof.Tests

open Sys2Proof.Machine

/-! ### Legality: each check refuses an ill-formed term and accepts a well-formed one -/

/-- R69 -/
theorem test_wf_nop : (Instr.nop .direct 0).wellFormed = false ∧ (Instr.nop .immediate 0).wellFormed = true := by decide
/-- R70 -/
theorem test_wf_stro : (Instr.stro .immediate 0).wellFormed = false ∧ (Instr.stro .stackRelative 0).wellFormed = false ∧
    (Instr.stro .stackRelativeDeferred 0).wellFormed = true := by decide
/-- R71 -/
theorem test_wf_deci : (Instr.deci .immediate 0).wellFormed = false ∧ (Instr.deci .indexed 0).wellFormed = true := by
  decide
/-- R71 -/
theorem test_wf_chari : (Instr.chari .immediate 0).wellFormed = false ∧ (Instr.chari .indexed 0).wellFormed = true := by
  decide
/-- R71 -/
theorem test_wf_str : (Instr.str .x .immediate 0).wellFormed = false ∧ (Instr.str .x .direct 0).wellFormed = true := by
  decide
/-- R71 -/
theorem test_wf_stbyter : (Instr.stbyter .a .immediate 0).wellFormed = false ∧
    (Instr.stbyter .a .direct 0).wellFormed = true := by decide

/-! ### Decoding: each constructor from a word written out from R60 to R66. Bits 7:0 are the opcode, 15:8 the high byte of
the specifier, 23:16 its low byte -/

theorem test_decode_stop : decodeTableWord 8 0b00000000 = some .stop := by decide
theorem test_decode_rettr : decodeTableWord 8 0b00000001 = some .rettr := by decide
theorem test_decode_movspa : decodeTableWord 8 0b00000010 = some .movspa := by decide
theorem test_decode_movflga : decodeTableWord 8 0b00000011 = some .movflga := by decide
theorem test_decode_br : decodeTableWord 24 0b00000010_00000001_00000100 = some (.br .immediate 0x0102) := by decide
theorem test_decode_brle : decodeTableWord 24 0b00000010_00000001_00000111 = some (.brle .indexed 0x0102) := by decide
theorem test_decode_brlt : decodeTableWord 24 0b00000010_00000001_00001000 = some (.brlt .immediate 0x0102) := by decide
theorem test_decode_breq : decodeTableWord 24 0b00000010_00000001_00001011 = some (.breq .indexed 0x0102) := by decide
theorem test_decode_brne : decodeTableWord 24 0b00000010_00000001_00001100 = some (.brne .immediate 0x0102) := by decide
theorem test_decode_brge : decodeTableWord 24 0b00000010_00000001_00001111 = some (.brge .indexed 0x0102) := by decide
theorem test_decode_brgt : decodeTableWord 24 0b00000010_00000001_00010000 = some (.brgt .immediate 0x0102) := by decide
theorem test_decode_brv : decodeTableWord 24 0b00000010_00000001_00010011 = some (.brv .indexed 0x0102) := by decide
theorem test_decode_brc : decodeTableWord 24 0b00000010_00000001_00010100 = some (.brc .immediate 0x0102) := by decide
theorem test_decode_call : decodeTableWord 24 0b00000010_00000001_00010111 = some (.call .indexed 0x0102) := by decide
theorem test_decode_notr : decodeTableWord 8 0b00011001 = some (.notr .x) := by decide
theorem test_decode_negr : decodeTableWord 8 0b00011010 = some (.negr .a) := by decide
theorem test_decode_aslr : decodeTableWord 8 0b00011101 = some (.aslr .x) := by decide
theorem test_decode_asrr : decodeTableWord 8 0b00011110 = some (.asrr .a) := by decide
theorem test_decode_rolr : decodeTableWord 8 0b00100001 = some (.rolr .x) := by decide
theorem test_decode_rorr : decodeTableWord 8 0b00100010 = some (.rorr .a) := by decide
theorem test_decode_nopn : decodeTableWord 8 0b00100110 = some (.nopn 2) := by decide
theorem test_decode_nop : decodeTableWord 24 0b00000010_00000001_00101000 = some (.nop .immediate 0x0102) := by decide
theorem test_decode_deci : decodeTableWord 24 0b00000010_00000001_00110001 = some (.deci .direct 0x0102) := by decide
theorem test_decode_deco : decodeTableWord 24 0b00000010_00000001_00111010 = some (.deco .indirect 0x0102) := by decide
theorem test_decode_stro : decodeTableWord 24 0b00000010_00000001_01000100 = some (.stro .stackRelativeDeferred 0x0102) := by
  decide
theorem test_decode_chari : decodeTableWord 24 0b00000010_00000001_01001011 = some (.chari .stackRelative 0x0102) := by
  decide
theorem test_decode_charo : decodeTableWord 24 0b00000010_00000001_01010101 = some (.charo .indexed 0x0102) := by decide
theorem test_decode_addsp : decodeTableWord 24 0b00000010_00000001_01100110 = some (.addsp .stackIndexed 0x0102) := by
  decide
theorem test_decode_subsp : decodeTableWord 24 0b00000010_00000001_01101111 = some (.subsp .stackIndexedDeferred 0x0102) := by
  decide
theorem test_decode_retn : decodeTableWord 8 0b01011101 = some (.retn 5) := by decide
theorem test_decode_addr : decodeTableWord 24 0b00000010_00000001_01110000 = some (.addr .a .immediate 0x0102) := by
  decide
theorem test_decode_subr : decodeTableWord 24 0b00000010_00000001_10001001 = some (.subr .x .direct 0x0102) := by decide
theorem test_decode_andr : decodeTableWord 24 0b00000010_00000001_10010010 = some (.andr .a .indirect 0x0102) := by
  decide
theorem test_decode_orr : decodeTableWord 24 0b00000010_00000001_10101011 = some (.orr .x .stackRelative 0x0102) := by
  decide
theorem test_decode_cpr : decodeTableWord 24 0b00000010_00000001_10110100 = some (.cpr .a .stackRelativeDeferred 0x0102) := by
  decide
theorem test_decode_ldr : decodeTableWord 24 0b00000010_00000001_11001101 = some (.ldr .x .indexed 0x0102) := by decide
theorem test_decode_ldbyter : decodeTableWord 24 0b00000010_00000001_11010110 = some (.ldbyter .a .stackIndexed 0x0102) := by
  decide
theorem test_decode_str : decodeTableWord 24 0b00000010_00000001_11101111 = some (.str .x .stackIndexedDeferred 0x0102) := by
  decide
theorem test_decode_stbyter : decodeTableWord 24 0b00000010_00000001_11110001 = some (.stbyter .a .direct 0x0102) := by
  decide

/-- R72: an illegal opcode decodes, and its legality verdict is false (95_test_vectors.md, 2.2). -/
theorem test_decode_illegal : (decodeTableWord 24 0x40).map Instr.wellFormed = some false := by decide

/-- R60: a format S opcode with one byte after it is no instruction; an empty map has no opcode (R73). -/
theorem test_decode_rejects : decode Config.default [0xC0, 0x00] = .error (.truncated 0xC0) ∧
    decode { Config.default with opcodeMap := [] } [0x00] = .error (.unknownOpcode 0x00) := by decide

/-! ### One step on the vectors of 95_test_vectors.md -/

/-- The reset state with these bytes in memory. -/
def vector (cells : List (Word × Byte)) : State :=
  { State.reset with mem := cells.foldl (fun m c => Memory.write m c.1 c.2) [] }

/-- The state under another configuration. -/
def under (cfg : Config) (s : State) : State := { s with cfg := cfg }

/-- The step answers a next state with this property. -/
def gives (s : State) (p : State → Bool) : Bool :=
  match step s with
  | .next t => p t
  | .fault _ => false
  | .refused _ => false

/-- K1 -/
theorem test_stop_halts_normally :
    gives (vector [(0x0000, 0x00)])
      (fun t => t.pc == 0x0001 && t.run == .halted && t.err == .none) = true := by decide
/-- K2 -/
theorem test_stop_wraps_pc :
    gives { vector [(0xFFFF, 0x00)] with pc := 0xFFFF }
      (fun t => t.pc == 0x0000 && t.err == .none) = true := by decide
/-- X6 -/
theorem test_rettr_stops_and_pops_nothing :
    gives { vector [(0x0010, 0x01), (0xFFFD, 0x00), (0xFFFE, 0x40)] with pc := 0x0010, sp := 0xFFFD }
      (fun t => t.pc == 0x0011 && t.sp == 0xFFFD && t.err == .unsupportedInstruction) = true := by decide
/-- U2 -/
theorem test_movspa_keeps_flags :
    gives { vector [(0x0000, 0x02)] with a := 0xFFFF, sp := 0x1234, flags := ⟨true, false, false, false⟩ }
      (fun t => t.a == 0x1234 && t.flags == ⟨true, false, false, false⟩) = true := by decide
/-- U3 -/
theorem test_movflga_preserve :
    gives (under { Config.default with movflgaUpper := .preserve }
      { vector [(0x0000, 0x03)] with a := 0x1230, flags := ⟨true, false, false, true⟩ })
      (fun t => t.a == 0x1239 && t.flags == ⟨true, false, false, true⟩) = true := by decide
/-- U4 -/
theorem test_movflga_clear :
    gives (under { Config.default with movflgaUpper := .clear }
      { vector [(0x0000, 0x03)] with a := 0x1230, flags := ⟨true, false, false, true⟩ })
      (fun t => t.a == 0x0009 && t.flags == ⟨true, false, false, true⟩) = true := by decide
/-- K7 -/
theorem test_br_absolute :
    gives (vector [(0x0000, 0x04), (0x0001, 0x00), (0x0002, 0x09)])
      (fun t => t.pc == 0x0009) = true := by decide
/-- K8 -/
theorem test_br_indexed :
    gives { vector [(0x0000, 0x05), (0x0001, 0x00), (0x0002, 0x10), (0x0012, 0x00), (0x0013, 0x30)] with x := 0x0002 }
      (fun t => t.x == 0x0002 && t.pc == 0x0030) = true := by decide
/-- K12 -/
theorem test_call_push_wraps :
    gives { vector [(0x0200, 0x16), (0x0201, 0x00), (0x0202, 0x10)] with pc := 0x0200, sp := 0x0001 }
      (fun t => t.pc == 0x0010 && t.sp == 0xFFFF && Memory.read t.mem 0xFFFF == 0x02 && Memory.read t.mem 0x0000 == 0x03) = true := by
  decide
/-- K13 -/
theorem test_call_reads_target_before_push :
    gives { vector [(0x0000, 0x17), (0x0001, 0xFF), (0x0002, 0xFD), (0xFFFD, 0x00), (0xFFFE, 0x40)] with x := 0x0000 }
      (fun t => t.pc == 0x0040 && Memory.readWord t.mem 0xFFFD == 0x0003) = true := by decide
/-- U6 -/
theorem test_notr_a :
    gives { vector [(0x0000, 0x18)] with a := 0x00FF }
      (fun t => t.a == 0xFF00 && t.flags == ⟨true, false, false, false⟩) = true := by decide
/-- U7 -/
theorem test_notr_keeps_v_c :
    gives { vector [(0x0000, 0x19)] with x := 0xFFFF, flags := ⟨false, false, true, true⟩ }
      (fun t => t.x == 0x0000 && t.flags == ⟨false, true, true, true⟩) = true := by decide
/-- U9 -/
theorem test_negr_overflow_keeps_c :
    gives { vector [(0x0000, 0x1A)] with a := 0x8000, flags := ⟨false, false, false, true⟩ }
      (fun t => t.a == 0x8000 && t.flags == ⟨true, false, true, true⟩) = true := by decide
/-- U10 -/
theorem test_negr_recomputes_v :
    gives { vector [(0x0000, 0x1B)] with x := 0x0000, flags := ⟨false, false, true, false⟩ }
      (fun t => t.x == 0x0000 && t.flags == ⟨false, true, false, false⟩) = true := by decide
/-- U12 -/
theorem test_aslr_keeps_n_z :
    gives { vector [(0x0000, 0x1C)] with a := 0x8000, flags := ⟨true, false, false, false⟩ }
      (fun t => t.a == 0x0000 && t.flags == ⟨true, false, true, true⟩) = true := by decide
/-- U13 -/
theorem test_aslr_sets_n_z_under_parameter :
    gives (under { Config.default with shiftSetsNZ := true }
      { vector [(0x0000, 0x1C)] with a := 0x8000, flags := ⟨true, false, false, false⟩ })
      (fun t => t.a == 0x0000 && t.flags == ⟨false, true, true, true⟩) = true := by decide
/-- U15 -/
theorem test_asrr_replicates_sign :
    gives { vector [(0x0000, 0x1E)] with a := 0x8003 }
      (fun t => t.a == 0xC001 && t.flags == ⟨false, false, false, true⟩) = true := by decide
/-- U17 -/
theorem test_asrr_sets_n_z_under_parameter :
    gives (under { Config.default with shiftSetsNZ := true }
      { vector [(0x0000, 0x1E)] with a := 0x0001 })
      (fun t => t.a == 0x0000 && t.flags == ⟨false, true, false, true⟩) = true := by decide
/-- U19 -/
theorem test_rolr_carry_out :
    gives { vector [(0x0000, 0x20)] with a := 0x8001 }
      (fun t => t.a == 0x0002 && t.flags == ⟨false, false, false, true⟩) = true := by decide
/-- U20 -/
theorem test_rolr_carry_in :
    gives { vector [(0x0000, 0x20)] with a := 0x0000, flags := ⟨false, false, false, true⟩ }
      (fun t => t.a == 0x0001 && t.flags == ⟨false, false, false, false⟩) = true := by decide
/-- U23 -/
theorem test_rorr_carry_both :
    gives { vector [(0x0000, 0x23)] with x := 0x0001, flags := ⟨false, false, false, true⟩ }
      (fun t => t.x == 0x8000 && t.flags == ⟨false, false, false, true⟩) = true := by decide
/-- U24 -/
theorem test_rorr_keeps_z :
    gives { vector [(0x0000, 0x22)] with a := 0x0000, flags := ⟨false, true, false, true⟩ }
      (fun t => t.a == 0x8000 && t.flags == ⟨false, true, false, false⟩) = true := by decide
/-- K5 -/
theorem test_nopn_keeps_flags :
    gives { vector [(0x0000, 0x27)] with flags := ⟨true, false, false, true⟩ }
      (fun t => t.pc == 0x0001 && t.flags == ⟨true, false, false, true⟩) = true := by decide
/-- W3 -/
theorem test_nopn_wraps_pc :
    gives { vector [(0xFFFF, 0x25)] with pc := 0xFFFF }
      (fun t => t.pc == 0x0000) = true := by decide
/-- K6 -/
theorem test_nop_takes_three_bytes :
    gives (vector [(0x0000, 0x28), (0x0001, 0x12), (0x0002, 0x34)])
      (fun t => t.pc == 0x0003) = true := by decide
/-- X1 -/
theorem test_nop_illegal_mode :
    gives { vector [(0x0010, 0x29), (0x0011, 0x00), (0x0012, 0x00)] with a := 0x1111, pc := 0x0010 }
      (fun t => t.a == 0x1111 && t.pc == 0x0010 && t.err == .decodeError) = true := by decide
/-- D7 -/
theorem test_deci_below_range :
    gives { vector [(0x0000, 0x31), (0x0001, 0x00), (0x0002, 0x20)] with input := [0x2D, 0x33, 0x32, 0x37, 0x36, 0x39] }
      (fun t => t.flags == ⟨false, false, true, false⟩ && Memory.readWord t.mem 0x0020 == 0x7FFF) = true := by decide
/-- D13 -/
theorem test_deci_skips_no_space :
    gives { vector [(0x0000, 0x31), (0x0001, 0x00), (0x0002, 0x20), (0x0020, 0x99), (0x0021, 0x99)] with flags := ⟨false, false, false, true⟩, input := [0x20, 0x35] }
      (fun t => t.flags == ⟨false, false, false, true⟩ && t.err == .inputFormatError && Memory.readWord t.mem 0x0020 == 0x9999 && t.input == [0x35]) = true := by
  decide
/-- O3 -/
theorem test_deco_most_negative :
    gives (vector [(0x0000, 0x38), (0x0001, 0x80), (0x0002, 0x00)])
      (fun t => t.output == [0x2D, 0x33, 0x32, 0x37, 0x36, 0x38]) = true := by decide
/-- O5 -/
theorem test_deco_keeps_flags :
    gives { vector [(0x0000, 0x39), (0x0001, 0x00), (0x0002, 0x20), (0x0020, 0x00), (0x0021, 0x0A)] with flags := ⟨true, false, false, true⟩ }
      (fun t => t.flags == ⟨true, false, false, true⟩ && t.output == [0x31, 0x30]) = true := by decide
/-- O10 -/
theorem test_stro_scan_wraps :
    gives { vector [(0x0100, 0x41), (0x0101, 0xFF), (0x0102, 0xFE), (0xFFFE, 0x58), (0xFFFF, 0x59)] with pc := 0x0100 }
      (fun t => t.output == [0x58, 0x59]) = true := by decide
/-- O12 -/
theorem test_stro_illegal_mode :
    gives (vector [(0x0000, 0x43), (0x0001, 0x00), (0x0002, 0x04)])
      (fun t => t.pc == 0x0000 && t.err == .decodeError && t.output == []) = true := by decide
/-- O14 -/
theorem test_chari_one_byte :
    gives { vector [(0x0000, 0x49), (0x0001, 0x00), (0x0002, 0x20), (0x0021, 0xEE)] with input := [0x41, 0x42] }
      (fun t => Memory.read t.mem 0x0020 == 0x41 && Memory.read t.mem 0x0021 == 0xEE && t.input == [0x42]) = true := by
  decide
/-- O16 -/
theorem test_chari_exhausted :
    gives (vector [(0x0000, 0x49), (0x0001, 0x00), (0x0002, 0x20), (0x0020, 0xEE)])
      (fun t => t.pc == 0x0003 && t.err == .inputExhausted && Memory.read t.mem 0x0020 == 0xEE) = true := by decide
/-- O20 -/
theorem test_charo_immediate_high_byte :
    gives (vector [(0x0000, 0x50), (0x0001, 0x00), (0x0002, 0x41)])
      (fun t => t.output == [0x00]) = true := by decide
/-- O22 -/
theorem test_charo_indexed :
    gives { vector [(0x0000, 0x55), (0x0001, 0x00), (0x0002, 0x10), (0x0011, 0x7A)] with x := 0x0001 }
      (fun t => t.output == [0x7A]) = true := by decide
/-- RET3 -/
theorem test_retn_sub :
    gives (under { Config.default with retSpDirection := .sub }
      { vector [(0x0000, 0x5A), (0xFFFB, 0x01), (0xFFFC, 0x11), (0xFFFD, 0x00), (0xFFFE, 0x03), (0xFFFF, 0x22)] with sp := 0xFFFD })
      (fun t => t.pc == 0x0111 && t.sp == 0xFFF9) = true := by decide
/-- RET4 -/
theorem test_retn_add_wraps :
    gives (under { Config.default with retSpDirection := .add }
      { vector [(0x0000, 0x5A), (0xFFFB, 0x01), (0xFFFC, 0x11), (0xFFFD, 0x00), (0xFFFE, 0x03), (0xFFFF, 0x22)] with sp := 0xFFFD })
      (fun t => t.pc == 0x225A && t.sp == 0x0001) = true := by decide
/-- A20 -/
theorem test_addsp_wraps :
    gives (vector [(0x0000, 0x60), (0x0001, 0x00), (0x0002, 0x02)])
      (fun t => t.sp == 0x0001 && t.flags == ⟨false, false, false, true⟩) = true := by decide
/-- A21 -/
theorem test_addsp_resolves_with_old_sp :
    gives { vector [(0x0000, 0x63), (0x0001, 0x00), (0x0002, 0x00), (0xFFF0, 0x00), (0xFFF1, 0x08)] with sp := 0xFFF0 }
      (fun t => t.sp == 0xFFF8 && t.flags == ⟨true, false, false, false⟩) = true := by decide
/-- A22 -/
theorem test_subsp_moves_down :
    gives (vector [(0x0000, 0x68), (0x0001, 0x00), (0x0002, 0x04)])
      (fun t => t.sp == 0xFFFB && t.flags == ⟨true, false, false, true⟩) = true := by decide
/-- A24 -/
theorem test_subsp_zero_clears_c :
    gives { vector [(0x0000, 0x68), (0x0001, 0x00), (0x0002, 0x00)] with sp := 0x8000, flags := ⟨false, false, false, true⟩ }
      (fun t => t.sp == 0x8000 && t.flags == ⟨true, false, false, false⟩) = true := by decide
/-- A3 -/
theorem test_addr_signed_and_unsigned_overflow :
    gives { vector [(0x0000, 0x70), (0x0001, 0x80), (0x0002, 0x00)] with a := 0x8000 }
      (fun t => t.a == 0x0000 && t.flags == ⟨false, true, true, true⟩) = true := by decide
/-- A4 -/
theorem test_addr_index_is_left_operand :
    gives { vector [(0x0000, 0x7D), (0x0001, 0x00), (0x0002, 0x10), (0x0012, 0x01), (0x0013, 0x00)] with x := 0x0002 }
      (fun t => t.x == 0x0102 && t.flags == ⟨false, false, false, false⟩) = true := by decide
/-- A8 -/
theorem test_subr_zero_clears_c :
    gives { vector [(0x0000, 0x80), (0x0001, 0x00), (0x0002, 0x00)] with a := 0x1234 }
      (fun t => t.a == 0x1234 && t.flags == ⟨false, false, false, false⟩) = true := by decide
/-- A9 -/
theorem test_subr_most_negative :
    gives { vector [(0x0000, 0x88), (0x0001, 0x80), (0x0002, 0x00)] with x := 0x8000 }
      (fun t => t.x == 0x0000 && t.flags == ⟨false, true, true, true⟩) = true := by decide
/-- A11 -/
theorem test_andr_keeps_v_c :
    gives { vector [(0x0000, 0x90), (0x0001, 0x0F), (0x0002, 0xFF)] with a := 0xF0F0, flags := ⟨false, false, true, true⟩ }
      (fun t => t.a == 0x00F0 && t.flags == ⟨false, false, true, true⟩) = true := by decide
/-- A12 -/
theorem test_andr_zero :
    gives { vector [(0x0000, 0x98), (0x0001, 0x0F), (0x0002, 0x0F)] with x := 0xF0F0 }
      (fun t => t.x == 0x0000 && t.flags == ⟨false, true, false, false⟩) = true := by decide
/-- A13 -/
theorem test_orr_negative :
    gives { vector [(0x0000, 0xA8), (0x0001, 0x80), (0x0002, 0x00)] with x := 0x0001 }
      (fun t => t.x == 0x8001 && t.flags == ⟨true, false, false, false⟩) = true := by decide
/-- A14 -/
theorem test_orr_zero :
    gives { vector [(0x0000, 0xA0), (0x0001, 0x00), (0x0002, 0x00)] with a := 0x0000, flags := ⟨true, false, false, false⟩ }
      (fun t => t.a == 0x0000 && t.flags == ⟨false, true, false, false⟩) = true := by decide
/-- A17 -/
theorem test_cpr_keeps_register :
    gives { vector [(0x0000, 0xB0), (0x0001, 0x00), (0x0002, 0x01)] with a := 0x8000 }
      (fun t => t.a == 0x8000 && t.flags == ⟨false, false, true, true⟩) = true := by decide
/-- A18 -/
theorem test_cpr_equal_zero :
    gives { vector [(0x0000, 0xB8), (0x0001, 0x00), (0x0002, 0x00)] with x := 0x0000 }
      (fun t => t.x == 0x0000 && t.flags == ⟨false, true, false, false⟩) = true := by decide
/-- M6 -/
theorem test_ldr_index_is_destination :
    gives { vector [(0x0000, 0xCD), (0x0001, 0x00), (0x0002, 0x10), (0x0012, 0xAB), (0x0013, 0xCD)] with x := 0x0002 }
      (fun t => t.x == 0xABCD) = true := by decide
/-- M7 -/
theorem test_ldr_word_wraps :
    gives (vector [(0x0000, 0xC1), (0x0001, 0xFF), (0x0002, 0xFF), (0xFFFF, 0x12)])
      (fun t => t.a == 0x12C1 && t.flags == ⟨false, false, false, false⟩) = true := by decide
/-- M9 -/
theorem test_ldbyter_clears_high_byte :
    gives { vector [(0x0000, 0xD1), (0x0001, 0x00), (0x0002, 0x20), (0x0020, 0xAB), (0x0021, 0xCD)] with a := 0xFFFF }
      (fun t => t.a == 0x00AB) = true := by decide
/-- M12 -/
theorem test_ldbyter_z_from_byte :
    gives (under { Config.default with loadSetsNZ := true }
      { vector [(0x0000, 0xD9), (0x0001, 0x00), (0x0002, 0x20), (0x0020, 0x00), (0x0021, 0xFF)] with x := 0x5555 })
      (fun t => t.x == 0x0000 && t.flags == ⟨false, true, false, false⟩) = true := by decide
/-- M16 -/
theorem test_str_stack_indexed_deferred :
    gives { vector [(0x0000, 0xE7), (0x0001, 0x00), (0x0002, 0x02), (0xFFF2, 0x01), (0xFFF3, 0x00)] with a := 0x7777, x := 0x0004, sp := 0xFFF0 }
      (fun t => t.pc == 0x0003 && Memory.readWord t.mem 0x0104 == 0x7777) = true := by decide
/-- W4 -/
theorem test_str_over_own_specifier :
    gives { vector [(0x0000, 0xE1), (0x0001, 0x00), (0x0002, 0x01)] with a := 0xABCD }
      (fun t => Memory.read t.mem 0x0000 == 0xE1 && Memory.read t.mem 0x0001 == 0xAB && Memory.read t.mem 0x0002 == 0xCD) = true := by
  decide
/-- M18 -/
theorem test_stbyter_one_byte :
    gives { vector [(0x0000, 0xF1), (0x0001, 0x00), (0x0002, 0x30), (0x0030, 0xEE), (0x0031, 0xFF)] with a := 0x1234 }
      (fun t => t.a == 0x1234 && Memory.read t.mem 0x0030 == 0x12 && Memory.read t.mem 0x0031 == 0xFF) = true := by
  decide
/-- M19 -/
theorem test_stbyter_low_byte_not_stored :
    gives { vector [(0x0000, 0xF9), (0x0001, 0x00), (0x0002, 0x30), (0x0030, 0xEE)] with x := 0x0041 }
      (fun t => Memory.read t.mem 0x0030 == 0x00 && Memory.read t.mem 0x0031 == 0x00) = true := by decide

/-- Where a branch at 0x0000 to 0x0040 goes for the four rows of N and Z of the truth table: T is true. -/
def taken (op : Byte) : List Bool :=
  [(false, false), (false, true), (true, false), (true, true)].map fun nz =>
    gives { vector [(0x0000, op), (0x0002, 0x40)] with flags := ⟨nz.1, nz.2, false, false⟩ } (fun t => t.pc == 0x0040)

/-- R152 -/
theorem test_brle : taken 0x06 = [false, true, true, true] := by decide
/-- R153 -/
theorem test_brlt : taken 0x08 = [false, false, true, true] := by decide
/-- R154 -/
theorem test_breq : taken 0x0A = [false, true, false, true] := by decide
/-- R155 -/
theorem test_brne : taken 0x0C = [true, false, true, false] := by decide
/-- R156 -/
theorem test_brge : taken 0x0E = [true, true, false, false] := by decide
/-- R157 -/
theorem test_brgt : taken 0x10 = [true, false, false, false] := by decide
/-- R158: V, not C -/
theorem test_brv :
    gives { vector [(0x0000, 0x12), (0x0002, 0x40)] with flags := ⟨false, false, true, false⟩ } (fun t => t.pc == 0x0040) &&
    gives { vector [(0x0000, 0x12), (0x0002, 0x40)] with flags := ⟨false, false, false, true⟩ } (fun t => t.pc == 0x0003)
      = true := by decide
/-- R159: C, not V -/
theorem test_brc :
    gives { vector [(0x0000, 0x14), (0x0002, 0x40)] with flags := ⟨false, false, false, true⟩ } (fun t => t.pc == 0x0040) &&
    gives { vector [(0x0000, 0x14), (0x0002, 0x40)] with flags := ⟨false, false, true, false⟩ } (fun t => t.pc == 0x0003)
      = true := by decide

/-! ### The machine around the instructions -/

/-- R288: the line of a load has the values after it. -/
theorem test_trace_line :
    gives { vector [(0x0000, 0xC8), (0x0002, 0x05)] with cfg := { Config.default with traceEnabled := true } } (fun t =>
      t.trace == [{ pc := 0x0003, sp := 0xFFFF, a := 0x0000, x := 0x0005, spec := 0x0005,
                    flags := ⟨false, false, false, false⟩, opcode := 0xC8,
                    mnemonic := { base := .ldr, reg := some .x, mode := some .immediate } }]) = true := by decide

/-- R135: no line for a step that raised an error. -/
theorem test_trace_none_on_error :
    gives { vector [(0x0000, 0x01)] with cfg := { Config.default with traceEnabled := true } } (fun t => t.trace == [])
      = true := by decide

/-- R17: a halted machine takes no step. -/
theorem test_halted_stays : step { vector [(0x0000, 0x24)] with run := .halted } =
    .next { vector [(0x0000, 0x24)] with run := .halted } := rfl

/-- R73: under a map that is not total the left-out opcode raises InternalError, with IR loaded and PC unmoved. -/
theorem test_internal_error :
    gives { vector [(0x0000, 0x24)] with cfg := { Config.default with opcodeMap := [] } }
      (fun t => t.err == .internalError && t.ir == 0x24 && t.pc == 0x0000) = true := by decide

/-- A word of the table placed at the fetch runs as the first instruction after reset (LDA 0x0005,i). -/
theorem test_with_fetch_word : gives (State.reset.withFetchWord 24 0x0500C0) (fun t => t.a == 0x0005 && t.pc == 0x0003) = true :=
  by decide

/-- R302: the image from address 0. -/
theorem test_reset_image :
    (match resetWith Config.default [0x00, 0xC0, 0x05] [0x31] with
      | .next t => decide (t.mem = [(1, 0xC0), (2, 0x05)] ∧ t.input = [0x31] ∧ t.sp = 0xFFFF)
      | .fault _ => false
      | .refused _ => false) = true := by decide

/-! ### The hypotheses of the statements are met -/

/-- Memory whose first `n` bytes are 0x41 (the opcode of STRO direct) and whose other bytes are zero. -/
def filled (n : Nat) : Memory := (List.range n).map fun k => (k, 0x41#8)

theorem lookup_map (l : List Nat) (k : Nat) :
    Memory.lookup (l.map fun k => (k, 0x41#8)) k = if k ∈ l then 0x41#8 else unlistedByte := by
  induction l with
  | nil => rfl
  | cons n rest ih =>
    simp only [List.map_cons, Memory.lookup, ih, List.mem_cons]
    by_cases h : n = k
    · simp [h]
    · simp [h, Ne.symm h]

theorem read_filled (n : Nat) (a : Word) : Memory.read (filled n) a = if a.toNat < n then 0x41#8 else unlistedByte := by
  simp [Memory.read, filled, lookup_map]

/-- A machine with the byte 0x41 in the whole of memory. -/
def endless : State := { State.reset with mem := filled 65536 }

theorem read_endless (a : Word) : Memory.read endless.mem a = 0x41#8 := by
  simp only [endless, read_filled, a.isLt, if_true]

/-- Where no byte of memory is zero, STRO direct faults. -/
theorem stro_without_zero (s : State) (b : Byte) (spec : Word) (h : ∀ a : Word, Memory.read s.mem a ≠ 0x00#8) :
    exec (.stro .direct spec) { s with ir := b } = .fault .stringOutputNeverEnds := by
  have hs : ∀ (n : Nat) (a : Word), scanString s.mem n a = none := fun n a => scanString_none.2 fun k _ => h _
  rw [exec_stro, execStro, withAddress_of_legal (ea := spec) rfl rfl]
  simp only [State.enterS_eq, State.advance_mem, State.setScratch_mem, State.advance_operand, State.setScratch_operand, hs]

theorem endless_ne_zero (a : Word) : Memory.read endless.mem a ≠ 0x00#8 := by
  rw [read_endless]
  decide

theorem witness_Sub16FlagsInEveryCorner :
    (0x7FFF : Word) ≠ 0x8000 ∧ (0x8001 : Word) ≠ 0x8000 ∧ (0x8000 : Word) = 0x8000 := by decide

theorem witness_ShiftsMoveEachBitByOne : (1 ≤ 1 ∧ 1 < 16) ∧ (1 ≤ 15 ∧ 15 < 16) ∧ 0 < 15 ∧ 14 < 15 := by decide

theorem witness_RotatesGoThroughCarry : (1 ≤ 1 ∧ 1 < 16) ∧ (1 ≤ 15 ∧ 15 < 16) ∧ 0 < 15 ∧ 14 < 15 := by decide

theorem witness_LogicFunctionsGiveBitsAndNZ : 0 < 16 ∧ 15 < 16 := by decide

theorem witness_WordWriteSetsTwoBytes : (0x0001 : Word) ≠ 0xFFFF ∧ (0x0001 : Word) ≠ 0xFFFF + 1 := by decide

theorem witness_ResolverFollowsTheModeTable :
    (vector [(0x0010, 0xAB)]).addressOf .direct 0x0010 = some 0x0010 := by decide

theorem witness_EncodeOfDecodeIsTheBytes :
    decode Config.default [0xE7, 0x00, 0x02, 0x58] = .ok (.str .a .stackIndexedDeferred 0x0002, [0x58]) := by
  decide

theorem witness_DecodeTakesTheLengthOfTheBaseOperation :
    (lookupOpcode Config.default.opcodeMap 0x5F = some .retn ∧ BaseOp.retn.requiresSpec = false) ∧
    (lookupOpcode Config.default.opcodeMap 0xFF = some .stbyter ∧ BaseOp.stbyter.requiresSpec = true) := by decide

theorem witness_ResetLoadsTheImage :
    (List.replicate 65536 (0x41 : Byte)).length ≤ 65536 ∧ 65536 < (List.replicate 65537 (0x41 : Byte)).length ∧
    0 < 65536 ∧ 65535 < 65536 := by
  simp only [List.length_replicate]
  decide

theorem witness_StepRunsTheDecodedInstruction_next :
    State.reset.run = .running ∧
    decode State.reset.cfg [Memory.read State.reset.mem State.reset.pc, Memory.read State.reset.mem (State.reset.pc + 1),
      Memory.read State.reset.mem (State.reset.pc + 2)] = .ok (.stop, [0x00, 0x00]) ∧
    Instr.stop.wellFormed = true ∧
    exec .stop { State.reset with ir := Memory.read State.reset.mem State.reset.pc } =
      .next ({ State.reset with ir := 0x00 }.enterU.halt) := ⟨rfl, by decide, rfl, rfl⟩

theorem witness_StepRunsTheDecodedInstruction_fault :
    endless.run = .running ∧
    decode endless.cfg [Memory.read endless.mem endless.pc, Memory.read endless.mem (endless.pc + 1),
      Memory.read endless.mem (endless.pc + 2)] = .ok (.stro .direct 0x4141, []) ∧
    (Instr.stro .direct 0x4141).wellFormed = true ∧
    exec (.stro .direct 0x4141) { endless with ir := Memory.read endless.mem endless.pc } =
      .fault .stringOutputNeverEnds := by
  refine ⟨rfl, ?_, rfl, stro_without_zero endless _ _ endless_ne_zero⟩
  rw [read_endless, read_endless, read_endless]
  change decode Config.default _ = _
  decide

/-- A machine that has stopped on an error. -/
def stopped : State := { State.reset with run := .halted, err := .decodeError }

theorem witness_HaltedIsAbsorbing : stopped.run = .halted ∧ stopped.Inv ∧ stopped.err ≠ .none :=
  ⟨rfl, ⟨rfl, by decide, by decide⟩, by decide⟩

theorem witness_IllegalModesRaiseDecodeError :
    (Instr.nop .direct 0).wellFormed = false ∧ (vector [(0x0000, 0x29)]).run = .running ∧
    decode (vector [(0x0000, 0x29)]).cfg [Memory.read (vector [(0x0000, 0x29)]).mem (vector [(0x0000, 0x29)]).pc,
      Memory.read (vector [(0x0000, 0x29)]).mem ((vector [(0x0000, 0x29)]).pc + 1),
      Memory.read (vector [(0x0000, 0x29)]).mem ((vector [(0x0000, 0x29)]).pc + 2)] = .ok (.nop .direct 0, []) := by
  decide

/-- The first step after reset: the halt opcode in the zero byte at 0x0000. -/
theorem step_reset : step State.reset = .next { State.reset with pc := 0x0001, run := .halted } := rfl

theorem witness_InternalErrorIsNeverRaised :
    State.reset.cfg.opcodeMap.length = 256 ∧ State.reset.err ≠ .internalError ∧
    step State.reset = .next { State.reset with pc := 0x0001, run := .halted } :=
  ⟨by decide +kernel, by decide, step_reset⟩

theorem witness_StepKeepsTheInvariant :
    State.reset.Inv ∧ step State.reset = .next { State.reset with pc := 0x0001, run := .halted } :=
  ⟨⟨rfl, fun _ => rfl, by decide⟩, step_reset⟩

theorem witness_StepKeepsTheConfiguration :
    step State.reset = .next { State.reset with pc := 0x0001, run := .halted } := step_reset

theorem witness_ScratchCarriesNothingOver :
    { State.reset with ir := 0x58, spec := 0x1234, mode := some .indexed, operand := 0x0001 } ≠ State.reset ∧
    { State.reset with ir := 0x58, spec := 0x1234, mode := some .indexed, operand := 0x0001 }.forgetScratch =
      State.reset.forgetScratch := by decide +kernel

theorem witness_TraceChangesNothingElse :
    { State.reset with cfg := { Config.default with traceEnabled := true } } ≠ State.reset ∧
    { State.reset with cfg := { Config.default with traceEnabled := true } }.forgetTrace = State.reset.forgetTrace := by
  decide +kernel

theorem witness_OnlyIoInstructionsUseTheStreams :
    exec (.nopn 0) State.reset = .next State.reset.enterU ∧ (Instr.nopn 0).base ∉ [.deci, .chari] ∧
    (Instr.nopn 0).base ∉ [.deco, .stro, .charo] := ⟨rfl, by decide, by decide⟩

theorem witness_FlagsNotNamedAreUntouched :
    exec (.nopn 0) State.reset = .next State.reset.enterU ∧ writesNZ State.reset.cfg (Instr.nopn 0).base = false ∧
    writesV (Instr.nopn 0).base = false ∧ writesC (Instr.nopn 0).base = false := ⟨rfl, rfl, by decide, by decide⟩

theorem witness_RegistersAndMemoryHaveTheirWriters :
    exec (.nopn 0) State.reset = .next State.reset.enterU ∧ traceReg (.nopn 0) ≠ some .x ∧
    traceReg (.nopn 0) ≠ some .a ∧ Instr.nopn 0 ≠ .movspa ∧ Instr.nopn 0 ≠ .movflga ∧
    (Instr.nopn 0).base ∉ [.call, .retn, .addsp, .subsp] ∧
    (Instr.nopn 0).base ∉ [.call, .str, .stbyter, .deci, .chari] :=
  ⟨rfl, by decide, by decide, by decide, by decide, by decide, by decide⟩

theorem witness_HaltsOnlyForTheListedConditions :
    State.reset.run = .running ∧ exec .rettr State.reset = .next (State.reset.enterU.raise .unsupportedInstruction) :=
  ⟨rfl, rfl⟩

theorem witness_ReturnReadsItsAddressAtSp :
    State.reset.cfg.retSpDirection = .sub ∧
    { State.reset with cfg := { Config.default with retSpDirection := .add } }.cfg.retSpDirection = .add := ⟨rfl, rfl⟩

theorem witness_MovflgaPacksTheFlags :
    { State.reset with cfg := { Config.default with movflgaUpper := .preserve } }.cfg.movflgaUpper = .preserve ∧
    { State.reset with cfg := { Config.default with movflgaUpper := .clear } }.cfg.movflgaUpper = .clear ∧ 4 ≤ 4 :=
  ⟨rfl, rfl, by decide⟩

theorem witness_ShiftsWriteTheRegisterAndCarry :
    State.reset.cfg.shiftSetsNZ = false ∧
    { State.reset with cfg := { Config.default with shiftSetsNZ := true } }.cfg.shiftSetsNZ = true := ⟨rfl, rfl⟩

theorem witness_LoadsCopyTheOperand :
    State.reset.cfg.loadSetsNZ = false ∧
    { State.reset with cfg := { Config.default with loadSetsNZ := true } }.cfg.loadSetsNZ = true := ⟨rfl, rfl⟩

theorem witness_StoreWritesTheWordAtItsAddress : State.reset.addressOf .direct 0xFFFF = some 0xFFFF := rfl

theorem witness_StoreByteWritesTheHighByte :
    State.reset.addressOf .direct 0x0003 = some 0x0003 ∧ (0x0003 : Word) = State.reset.pc + 3 := by decide

theorem witness_DecimalReaderReadsANumber :
    ([0x30, 0x39] : List Byte).all isDigit = true ∧ isDigit 0x2F = false ∧ isDigit 0x3A = false ∧
    ([0x30, 0x39] : List Byte) ≠ [] ∧ isDigit 0x20 = false ∧ (0x20 : Byte) ≠ 0x2D := by decide

/-- A machine with these bytes of input. -/
def reading (input : List Byte) : State := { State.reset with input := input }

theorem witness_DecimalInputStoresTheNumber :
    (reading [0x2D, 0x33, 0x20, 0x35]).addressOf .direct 0x0020 = some 0x0020 ∧
    readDecimal (reading [0x2D, 0x33, 0x20, 0x35]).cfg.continueOnInputExhaustion (reading [0x2D, 0x33, 0x20, 0x35]).input =
      (.ok (-3), [0x35]) := ⟨rfl, by decide⟩

theorem witness_InputErrorsWriteNothing :
    ((reading [0x20, 0x35]).addressOf .direct 0x0020 = some 0x0020 ∧
      readDecimal (reading [0x20, 0x35]).cfg.continueOnInputExhaustion (reading [0x20, 0x35]).input =
        (.error .inputFormatError, [0x35])) ∧
    ((reading []).addressOf .direct 0x0020 = some 0x0020 ∧ (reading []).input = [] ∧
      (reading []).cfg.continueOnInputExhaustion = false) := ⟨⟨rfl, by decide⟩, rfl, rfl, rfl⟩

theorem witness_CharacterInputStoresOneByte :
    ((reading [0x41, 0x42]).addressOf .direct 0xFFFF = some 0xFFFF ∧ (reading [0x41, 0x42]).input = 0x41 :: [0x42]) ∧
    ({ State.reset with cfg := { Config.default with continueOnInputExhaustion := true } }.input = [] ∧
      { State.reset with cfg := { Config.default with continueOnInputExhaustion := true } }.cfg.continueOnInputExhaustion
        = true) := ⟨⟨rfl, rfl⟩, rfl, rfl⟩

theorem witness_DecimalOutputReadsBack : isDigit 0x20 = false := by decide

/-- The longest string: 65535 bytes from address 0 and the zero byte at 0xFFFF. -/
theorem witness_StringOutputWritesUpToTheZero :
    AddrMode.direct.legalForString = true ∧
    { State.reset with mem := filled 65535 }.addressOf .direct 0x0000 = some 0x0000 ∧ 65535 < 65536 ∧
    (∀ k : Nat, k < 65535 →
      Memory.read { State.reset with mem := filled 65535 }.mem (0x0000 + BitVec.ofNat 16 k) ≠ 0) ∧
    Memory.read { State.reset with mem := filled 65535 }.mem (0x0000 + BitVec.ofNat 16 65535) = 0 := by
  refine ⟨rfl, rfl, by decide, fun k hk => ?_, ?_⟩
  · have h : ((0x0000 : Word) + BitVec.ofNat 16 k).toNat = k := by simp; omega
    simp only [read_filled, h, hk, if_true]
    decide
  · simp only [read_filled]
    decide

theorem witness_StringOutputEndsIffSomeByteIsZero :
    AddrMode.indirect.legalForString = true ∧ ∀ a : Word, Memory.read endless.mem a ≠ 0 :=
  ⟨rfl, fun a => by rw [read_endless]; decide⟩

end Sys2Proof.Tests
end

section
/-! PROOFS of 20_memory.md: reading and writing memory (R41, R42 and R43). -/

namespace Sys2Proof.Machine

/-- R9: the number the word `{hi, lo}` stands for; the low byte stays below 256, so the halves do not overlap. -/
theorem toNat_joinBytes (h l : Byte) : (joinBytes h l).toNat = 256 * h.toNat + l.toNat := by
  have hl : l.toNat < 2 ^ 8 := l.isLt
  rw [joinBytes, BitVec.toNat_append, ← Nat.shiftLeft_add_eq_or_of_lt hl, Nat.shiftLeft_eq]
  omega

/-- R42: the two bytes of a word, the high one at the word's address. -/
theorem Memory.toNat_readWord (m : Memory) (a : Word) :
    (Memory.readWord m a).toNat = 256 * (Memory.read m a).toNat + (Memory.read m (a + 1)).toNat :=
  toNat_joinBytes (Memory.read m a) (Memory.read m (a + 1))

/-- R42: the address after the top of memory is address 0. -/
theorem Memory.readWord_top (m : Memory) :
    Memory.readWord m 0xFFFF = Memory.read m 0xFFFF ++ Memory.read m 0x0000 := by
  have wrap : (0xFFFF : Word) + 1 = 0x0000 := by decide
  rw [Memory.readWord, wrap, joinBytes]

/-- Settles O9: the rule of a byte read after a byte write, and the two rules of the word read. -/
theorem memoryReadsAsLastWritten : Obligations.MemoryReadsAsLastWritten :=
  ⟨Memory.read_write, Memory.toNat_readWord, Memory.readWord_top⟩

end Sys2Proof.Machine
end

section
/-! PROOFS of 40_operand_resolution.md: the address of each mode (R93 to R99), next to `addressOf_eq_none`,
`valueOf_immediate` and `valueOf_of_addressOf` of the laws. -/

namespace Sys2Proof.Machine

section ModeTable

variable (s : State) (spec : Word)

/-- R93: direct addresses the specifier. -/
@[simp] theorem addressOf_direct : s.addressOf .direct spec = some spec := rfl

/-- R94: indirect addresses through the pointer at the specifier. -/
@[simp] theorem addressOf_indirect : s.addressOf .indirect spec = some (Memory.readWord s.mem spec) := rfl

/-- R95: stack-relative offsets the SP of the start. -/
@[simp] theorem addressOf_stackRelative : s.addressOf .stackRelative spec = some (spec + s.sp) := rfl

/-- R96: stack-relative-deferred addresses through a pointer on the stack. -/
@[simp] theorem addressOf_stackRelativeDeferred :
    s.addressOf .stackRelativeDeferred spec = some (Memory.readWord s.mem (s.sp + spec)) := rfl

/-- R97: indexed offsets by X, a byte count that is not scaled (R101). -/
@[simp] theorem addressOf_indexed : s.addressOf .indexed spec = some (spec + s.x) := rfl

/-- R98: stack-indexed offsets by both SP and X. -/
@[simp] theorem addressOf_stackIndexed : s.addressOf .stackIndexed spec = some (spec + s.sp + s.x) := rfl

/-- R99: stack-indexed-deferred adds X to the pointer it fetched, not to the pointer's address. -/
@[simp] theorem addressOf_stackIndexedDeferred :
    s.addressOf .stackIndexedDeferred spec = some (Memory.readWord s.mem (s.sp + spec) + s.x) := rfl

end ModeTable

/-- Settles O11: immediate has the specifier and no address (R92), the other modes have the address of their row, and the
value of a mode with an address is the word there (R100). -/
theorem resolverFollowsTheModeTable : Obligations.ResolverFollowsTheModeTable := fun s spec =>
  ⟨valueOf_immediate s spec, addressOf_eq_none.mpr rfl, addressOf_direct s spec, addressOf_indirect s spec,
    addressOf_stackRelative s spec, addressOf_stackRelativeDeferred s spec, addressOf_indexed s spec,
    addressOf_stackIndexed s spec, addressOf_stackIndexedDeferred s spec, fun _ _ => valueOf_of_addressOf⟩

end Sys2Proof.Machine
end

section
/-! PROOFS of 41_alu.md: the sum, the difference, the shifts, the rotations through carry and the bitwise functions (R111 to
R113, R115 to R119 and R121), by the equations and the bits of each function in the laws. -/

namespace Sys2Proof.Machine

/-! ### Addition and subtraction -/

/-- Settles O1: each part by the equation of its field, with V's two comparisons as propositions. -/
theorem add16GivesSumAndFlags : Obligations.Add16GivesSumAndFlags := by
  intro lhs rhs
  refine ⟨?result, ?carry, ?negative, ?zero, ?overflow⟩
  case result => rw [add16_result, BitVec.toNat_add]
  case carry => rw [add16_c, decide_eq_true_iff]
  case negative => rw [add16_n, add16_result]
  case zero => rw [add16_z, add16_result]; exact decide_eq_true_iff
  case overflow => rw [add16_v, add16_result, Bool.and_eq_true, beq_iff_eq, bne_iff_ne]

/-- Settles O3: `neg16` is the negation of words, so `sub16` has their difference as its result. -/
theorem sub16AddsTheNegatedOperand : Obligations.Sub16AddsTheNegatedOperand := by
  refine ⟨fun v => ⟨?negation, rfl⟩, fun lhs rhs => ⟨rfl, sub16_result lhs rhs⟩, by decide⟩
  case negation => rw [neg16_eq, BitVec.toNat_neg]

/-! ### Shifts -/

/-- R115: the bits of a shift left. -/
theorem asl16_getLsbD (v : Word) (i : Nat) (hi : i < 16) :
    (asl16 v).result.getLsbD i = if i = 0 then false else v.getLsbD (i - 1) := by
  rw [asl16_result, BitVec.getLsbD_shiftLeft]
  split
  case isTrue hzero => simp [hzero]
  case isFalse hpos => simp [hi, hpos]

/-- R115: V of a shift left says that the sign bit changed. -/
theorem asl16_v_iff (v : Word) : (asl16 v).v = true ↔ (asl16 v).result.getLsbD 15 ≠ v.getLsbD 15 := by
  rw [asl16_v, asl16_result, BitVec.msb_eq_getLsbD_last, BitVec.msb_eq_getLsbD_last, Bool.xor_iff_ne]
  exact ne_comm

/-- Settles O6: the bits of both shifts at the two ends and between them; C is the bit that is shifted out. -/
theorem shiftsMoveEachBitByOne : Obligations.ShiftsMoveEachBitByOne := by
  refine ⟨fun v => ⟨?leftFill, ?leftBits, ?leftCarry, asl16_v_iff v⟩, fun v => ⟨?rightSign, ?rightBits, asr16_c v⟩⟩
  case leftFill => rw [asl16_getLsbD v 0 (by decide), if_pos rfl]
  case leftBits => intro i h1 hi; rw [asl16_getLsbD v i hi, if_neg (by omega)]
  case leftCarry => rw [asl16_c, BitVec.msb_eq_getLsbD_last]
  case rightSign => rw [asr16_getLsbD v 15 (by decide), if_pos rfl]
  case rightBits => intro i hi; rw [asr16_getLsbD v i (by omega), if_neg (by omega)]

/-! ### Rotations through carry

R117 calls the rotation left a rotation of the 17 bits carry and value. It then moves bit `i` to bit `i + 1` modulo 17, and
seventeen of them bring every bit back. -/

/-- A rotation left by one moves bit `i` to bit `i + 1`, and the top bit to bit 0. -/
theorem getLsbD_rotateLeft_one {w : Nat} (x : BitVec w) {i : Nat} (hi : i < w) :
    (x.rotateLeft 1).getLsbD ((i + 1) % w) = x.getLsbD i := by
  obtain hw | hw : w = 1 ∨ 1 < w := by omega
  · subst hw
    simp [Nat.lt_one_iff.mp hi]
  · obtain htop | hbelow : i + 1 = w ∨ i + 1 < w := by omega
    · rw [htop, Nat.mod_self, BitVec.getLsbD_rotateLeft, Nat.mod_eq_of_lt hw]
      simp [← htop]
    · rw [Nat.mod_eq_of_lt hbelow, BitVec.getLsbD_rotateLeft, Nat.mod_eq_of_lt hw]
      simp [hbelow]

/-- `k` rotations left by one move bit `i` to bit `i + k`, counted around the width. -/
theorem getLsbD_rotateLeft_one_iterate {w : Nat} (x : BitVec w) (k : Nat) {i : Nat} (hi : i < w) :
    ((fun y : BitVec w => y.rotateLeft 1)^[k] x).getLsbD ((i + k) % w) = x.getLsbD i := by
  induction k with
  | zero => rw [Nat.add_zero, Nat.mod_eq_of_lt hi, Function.iterate_zero, id]
  | succ k ih =>
    have hk : (i + k) % w < w := Nat.mod_lt _ (by omega)
    rw [Function.iterate_succ_apply', ← ih, ← getLsbD_rotateLeft_one _ hk, Nat.mod_add_mod, Nat.add_assoc]

/-- As many rotations left by one as the word has bits give back the word. -/
theorem rotateLeft_one_iterate_width {w : Nat} (x : BitVec w) : (fun y : BitVec w => y.rotateLeft 1)^[w] x = x := by
  apply BitVec.eq_of_getLsbD_eq
  intro i hi
  have moved := getLsbD_rotateLeft_one_iterate x w hi
  rwa [Nat.add_mod_right, Nat.mod_eq_of_lt hi] at moved

/-- The 17 bits that a rotation through carry turns: the carry above the value (R117). -/
def CarryOut.bits (p : CarryOut) : BitVec 17 := BitVec.ofBool p.c ++ p.result

theorem CarryOut.bits_getLsbD_value (p : CarryOut) {i : Nat} (hi : i < 16) : p.bits.getLsbD i = p.result.getLsbD i := by
  rw [bits, BitVec.getLsbD_append, if_pos hi]

theorem CarryOut.bits_getLsbD_carry (p : CarryOut) : p.bits.getLsbD 16 = p.c := by
  rw [bits, BitVec.getLsbD_append, if_neg (by decide)]
  simp

/-- The 17 bits hold the value and the carry. -/
theorem CarryOut.bits_injective : Function.Injective CarryOut.bits := by
  rintro ⟨v, c⟩ ⟨w, d⟩ h
  have hvalue : v = w := BitVec.eq_of_getLsbD_eq fun i hi => by
    simpa only [bits_getLsbD_value _ hi] using congrArg (·.getLsbD i) h
  have hcarry : c = d := by
    simpa only [bits_getLsbD_carry] using congrArg (·.getLsbD 16) h
  rw [hvalue, hcarry]

/-- `rol16` from a value and its carry, so that it can be repeated. -/
def CarryOut.rol (p : CarryOut) : CarryOut := rol16 p.result p.c

/-- R117: `rol16` is a rotation left of the 17 bits. -/
theorem CarryOut.bits_rol (p : CarryOut) : p.rol.bits = p.bits.rotateLeft 1 := by
  apply BitVec.eq_of_getLsbD_eq
  intro i hi
  obtain rfl | hpos : i = 0 ∨ 1 ≤ i := by omega
  · have moved := getLsbD_rotateLeft_one p.bits (i := 16) (by decide)
    rw [bits_getLsbD_value _ (by decide), rol, rol16_getLsbD _ _ 0 (by decide), if_pos rfl, ← bits_getLsbD_carry, ← moved]
  · have moved := getLsbD_rotateLeft_one p.bits (i := i - 1) (by omega)
    rw [Nat.sub_add_cancel hpos, Nat.mod_eq_of_lt hi, bits_getLsbD_value p (by omega)] at moved
    rw [moved]
    obtain rfl | hlow : i = 16 ∨ i < 16 := by omega
    · rw [bits_getLsbD_carry, rol, rol16_c, BitVec.msb_eq_getLsbD_last]
    · rw [bits_getLsbD_value _ hlow, rol, rol16_getLsbD _ _ i hlow, if_neg (by omega)]

/-- R186: seventeen rotations left through carry restore the value and the carry. -/
theorem CarryOut.rol_iterate_seventeen (p : CarryOut) : CarryOut.rol^[17] p = p := by
  have onBits : Function.Semiconj CarryOut.bits CarryOut.rol (fun y => y.rotateLeft 1) := CarryOut.bits_rol
  apply CarryOut.bits_injective
  rw [(onBits.iterate_right 17).eq, rotateLeft_one_iterate_width]

/-- R117 and R118: a rotation right through carry takes back a rotation left. -/
theorem ror16_rol16 (v : Word) (cin : Bool) :
    ror16 (rol16 v cin).result (rol16 v cin).c = { result := v, c := cin } := by
  have hvalue : (ror16 (rol16 v cin).result (rol16 v cin).c).result = v := by
    apply BitVec.eq_of_getLsbD_eq
    intro i hi
    rw [ror16_getLsbD _ _ i hi]
    split
    case isTrue htop => rw [rol16_c, BitVec.msb_eq_getLsbD_last, htop]
    case isFalse hbelow => rw [rol16_getLsbD v cin (i + 1) (by omega), if_neg (by omega), Nat.add_sub_cancel]
  have hcarry : (ror16 (rol16 v cin).result (rol16 v cin).c).c = cin := by
    rw [ror16_c, rol16_getLsbD v cin 0 (by decide), if_pos rfl]
  exact (CarryOut.mk.injEq ..).mpr ⟨hvalue, hcarry⟩

/-- Settles O7: the bits of both rotations at the two ends and between them, and the rotation of the 17 bits. -/
theorem rotatesGoThroughCarry : Obligations.RotatesGoThroughCarry := by
  intro v cin
  refine ⟨?leftFill, ?leftBits, ?leftCarry, ?rightFill, ?rightBits, ror16_c v cin, CarryOut.bits_rol ⟨v, cin⟩,
    CarryOut.rol_iterate_seventeen ⟨v, cin⟩, ror16_rol16 v cin⟩
  case leftFill => rw [rol16_getLsbD v cin 0 (by decide), if_pos rfl]
  case leftBits => intro i h1 hi; rw [rol16_getLsbD v cin i hi, if_neg (by omega)]
  case leftCarry => rw [rol16_c, BitVec.msb_eq_getLsbD_last]
  case rightFill => rw [ror16_getLsbD v cin 15 (by decide), if_pos rfl]
  case rightBits => intro i hi; rw [ror16_getLsbD v cin i (by omega), if_neg (by omega)]

/-! ### The bitwise functions -/

/-- R119 and R121: N and Z of a bitwise result, the same for every such function. -/
theorem logicOut_nz (w : Word) :
    (logicOut w).n = (logicOut w).result.msb ∧ ((logicOut w).z = true ↔ (logicOut w).result = 0) :=
  ⟨rfl, decide_eq_true_iff⟩

/-- R119: the complement inverts each bit. -/
theorem not16_getLsbD (v : Word) (i : Nat) (hi : i < 16) : (not16 v).result.getLsbD i = !v.getLsbD i := by
  rw [not16_result, BitVec.getLsbD_not, decide_eq_true hi, Bool.true_and]

/-- Settles O8: the three functions differ in their result alone. -/
theorem logicFunctionsGiveBitsAndNZ : Obligations.LogicFunctionsGiveBitsAndNZ :=
  ⟨fun v => ⟨not16_getLsbD v, logicOut_nz (~~~v)⟩, fun l r => ⟨and16_result l r, logicOut_nz (l &&& r)⟩,
    fun l r => ⟨or16_result l r, logicOut_nz (l ||| r)⟩⟩

end Sys2Proof.Machine
end

section
/-! PROOFS of 30_encoding.md: what the decoder reads under any configuration, the fields of an opcode, and the round trip
between `decode` and `encode` under the default maps (R60 to R78). -/

namespace Sys2Proof

/-! ### The decoder under every configuration -/

/-- R76: a format U operation is decoded from the opcode alone. -/
theorem decode_formatU {cfg : Config} {op : Byte} {b : BaseOp} (hop : lookupOpcode cfg.opcodeMap op = some b)
    (hb : b.requiresSpec = false) (rest : List Byte) : decode cfg (op :: rest) = .ok (assemble cfg b op 0, rest) := by
  simp only [decode, hop, hb]

/-- R75, R76: a format S operation is decoded from the opcode and the two bytes after it, the first of them the high one. -/
theorem decode_formatS {cfg : Config} {op : Byte} {b : BaseOp} (hop : lookupOpcode cfg.opcodeMap op = some b)
    (hb : b.requiresSpec = true) (hi lo : Byte) (rest : List Byte) :
    decode cfg (op :: hi :: lo :: rest) = .ok (assemble cfg b op (joinBytes hi lo), rest) := by
  simp only [decode, hop, hb]

/-- What accepted bytes look like: an opcode with a base operation, two bytes of specifier in format S, and the rest. -/
theorem decode_ok {cfg : Config} {bytes rest : List Byte} {i : Instr} (h : decode cfg bytes = .ok (i, rest)) :
    ∃ op b, lookupOpcode cfg.opcodeMap op = some b ∧
      ((b.requiresSpec = false ∧ bytes = op :: rest ∧ i = assemble cfg b op 0) ∨
        (b.requiresSpec = true ∧ ∃ hi lo, bytes = op :: hi :: lo :: rest ∧ i = assemble cfg b op (joinBytes hi lo))) := by
  unfold decode at h
  split at h
  case h_1 => cases h
  case h_2 op tail =>
    split at h
    case h_1 => cases h
    case h_2 b hop =>
      split at h
      case h_1 hb => cases h; exact ⟨op, b, hop, .inl ⟨hb, rfl, rfl⟩⟩
      case h_2 hi lo _ hb => cases h; exact ⟨op, b, hop, .inr ⟨hb, hi, lo, rfl, rfl⟩⟩
      case h_3 => cases h

/-- The instruction put together for a base operation belongs to it. -/
@[simp] theorem assemble_base (cfg : Config) (b : BaseOp) (op : Byte) (spec : Word) :
    (assemble cfg b op spec).base = b := by
  cases b <;> rfl

/-- R65: exactly the format S operations keep the specifier they are put together with. -/
theorem assemble_specifier (cfg : Config) (b : BaseOp) (op : Byte) (spec : Word) :
    (assemble cfg b op spec).specifier = if b.requiresSpec then some spec else none := by
  cases b <;> rfl

/-- The specifier is no part of the opcode byte. -/
theorem assemble_opcode (cfg : Config) (b : BaseOp) (op : Byte) (spec spec' : Word) :
    (assemble cfg b op spec).opcode = (assemble cfg b op spec').opcode := by
  cases b <;> rfl

/-- Settles O14: the two formats of the decoder, with the base operation and the specifier of what it puts together. -/
theorem decodeTakesTheLengthOfTheBaseOperation : Obligations.DecodeTakesTheLengthOfTheBaseOperation := by
  intro cfg op rest b hop
  refine ⟨fun hb => ⟨_, decode_formatU hop hb rest, assemble_base ..⟩,
    fun hb hi lo => ⟨_, decode_formatS hop hb hi lo rest, assemble_base .., ?specifier⟩⟩
  case specifier => rw [assemble_specifier, if_pos hb, joinBytes]

/-! ### The fields of an opcode read back

The opcode of an instruction is the bits of its family followed by its fields, so each field is read from the low end. -/

/-- R64: the default codes give each mode its own code. -/
theorem variant_code (m : AddrMode) : defaultModeCode.variant m.code = m := by
  cases m <;> rfl

/-- R62: the mode field is the low three bits. -/
theorem modeField_append (p : BitVec 5) (m : AddrMode) : modeField Config.default (p ++ m.code) = m := by
  rw [modeField, BitVec.extractLsb'_append_eq_right]
  exact variant_code m

/-- R62: so it is under a register field, which stands above it. -/
theorem modeField_append_reg (p : BitVec 4) (r : Reg) (m : AddrMode) :
    modeField Config.default (p ++ r.code ++ m.code) = m :=
  modeField_append (p ++ r.code) m

/-- The lowest bit is that of the field that stands lowest. -/
theorem getLsbD_append_zero (p : BitVec 7) (x : BitVec 1) : (p ++ x : BitVec (7 + 1)).getLsbD 0 = x.getLsbD 0 := by
  rw [BitVec.getLsbD_append, if_pos (by decide)]

/-- R61: a binary operation's register field stands above its mode field. -/
theorem binaryReg_append (p : BitVec 4) (r : Reg) (k : BitVec 3) : binaryReg (p ++ r.code ++ k) = r := by
  rw [binaryReg, BitVec.getLsbD_append, if_neg (by decide), BitVec.getLsbD_append, if_pos (by decide)]
  cases r <;> rfl

/-- R61: a unary operation's register field is bit 0. -/
theorem unaryReg_append (p : BitVec 7) (r : Reg) : unaryReg (p ++ r.code) = r := by
  rw [unaryReg, getLsbD_append_zero]
  cases r <;> rfl

/-- R62: the mode field of branches and call is bit 0. -/
theorem branchMode_append (p : BitVec 7) (m : BranchMode) : branchMode (p ++ m.code) = m := by
  rw [branchMode, getLsbD_append_zero]
  cases m <;> rfl

/-- R63: the count of a return is the low three bits. -/
theorem countField_append (p : BitVec 5) (n : BitVec 3) : countField (p ++ n) = n :=
  BitVec.extractLsb'_append_eq_right

/-- R63: the ignored bits of a bare no-op are the low two. -/
theorem bareField_append (p : BitVec 6) (nn : BitVec 2) : bareField (p ++ nn) = nn :=
  BitVec.extractLsb'_append_eq_right

/-! ### The round trip under the default maps (PRESUMED: logs 1 and 2) -/

/-- The fields of an instruction's own opcode put the instruction together again. -/
theorem assemble_of_opcode (i : Instr) :
    assemble Config.default i.base i.opcode (i.specifier.getD 0) = i := by
  cases i <;>
    simp only [Instr.base, Instr.opcode, Instr.specifier, Option.getD_some, assemble, branchMode_append, unaryReg_append,
      bareField_append, countField_append, binaryReg_append, modeField_append,
      modeField_append_reg]

/-- R66: the default map gives an instruction's opcode its base operation, whatever the fields hold. -/
theorem lookupOpcode_opcode (i : Instr) : lookupOpcode Config.default.opcodeMap i.opcode = some i.base := by
  cases i
  case stop | rettr | movspa | movflga => rfl
  case nopn field | retn field => revert field; decide
  case notr r | negr r | aslr r | asrr r | rolr r | rorr r => cases r <;> rfl
  case br m _ | brle m _ | brlt m _ | breq m _ | brne m _ | brge m _ | brgt m _ | brv m _ | brc m _ | call m _ =>
    cases m <;> rfl
  case nop m _ | deci m _ | deco m _ | stro m _ | chari m _ | charo m _ | addsp m _ | subsp m _ => cases m <;> rfl
  case addr r m _ | subr r m _ | andr r m _ | orr r m _ | cpr r m _ | ldr r m _ | ldbyter r m _ | str r m _ |
      stbyter r m _ =>
    cases r <;> cases m <;> rfl

/-- R65: the instructions with a specifier are those of the format S operations. -/
theorem specifier_isSome (i : Instr) : i.specifier.isSome = i.base.requiresSpec := by
  cases i <;> rfl

/-- Settles O12: the lookup finds the base operation, whose format says what follows the opcode, and the fields of the
opcode with the specifier are the instruction's own. -/
theorem decodeOfEncodeIsTheInstruction : Obligations.DecodeOfEncodeIsTheInstruction := by
  intro i rest
  have hop := lookupOpcode_opcode i
  have format := specifier_isSome i
  have whole := assemble_of_opcode i
  unfold encode
  cases hspec : i.specifier with
  | none =>
    rw [hspec] at format whole
    have decoded := decode_formatU hop format.symm rest
    rwa [← Option.getD_none (a := (0 : Word)), whole] at decoded
  | some spec =>
    rw [hspec] at format whole
    have decoded := decode_formatS hop format.symm (hiByte spec) (loByte spec) rest
    rwa [Machine.joinBytes_hi_lo, ← Option.getD_some (a := spec) (b := 0), whole] at decoded

/-- R66: the fields an opcode value is read with under the default map are those its base operation is written with, so the
map read backwards is the encoder. -/
theorem opcode_assemble {op : Byte} {b : BaseOp} (hop : lookupOpcode Config.default.opcodeMap op = some b) (spec : Word) :
    (assemble Config.default b op spec).opcode = op := by
  have table : ∀ op : Byte, ∀ b ∈ lookupOpcode Config.default.opcodeMap op,
      (assemble Config.default b op 0).opcode = op := by
    decide
  rw [assemble_opcode _ _ _ _ 0]
  exact table op b hop

/-- Settles O13: the opcode is the one read (`opcode_assemble`), and the specifier's halves are the two bytes read. -/
theorem encodeOfDecodeIsTheBytes : Obligations.EncodeOfDecodeIsTheBytes := by
  intro bytes rest i h
  obtain ⟨op, b, hop, ⟨hb, rfl, rfl⟩ | ⟨hb, hi, lo, rfl, rfl⟩⟩ := decode_ok h
  · simp [encode, assemble_specifier, hb, opcode_assemble hop]
  · simp [encode, assemble_specifier, hb, opcode_assemble hop]

/-! ### The default maps -/

/-- Settles O15: the verdict on each of the 256 opcode values. -/
theorem illegalOpcodesAreTheEighteen : Obligations.IllegalOpcodesAreTheEighteen := by
  unfold Obligations.IllegalOpcodesAreTheEighteen
  decide

/-- Settles O16: the table is counted through; each mode has its own code (`variant_code`). -/
theorem defaultMapObeysTheStructure : Obligations.DefaultMapObeysTheStructure := by
  refine ⟨?fields, ?codes, ?formatU, ?formatS, variant_code⟩
  case fields => decide +kernel
  case codes => decide
  case formatU => decide +kernel
  case formatS => decide +kernel

/-- Settles O17: the seven words one by one. -/
theorem writtenOutWordsDecode : Obligations.WrittenOutWordsDecode := by
  unfold Obligations.WrittenOutWordsDecode
  decide

end Sys2Proof
end

section
/-! PROOFS of 41_alu.md, the signed reading: overflow of the sum and the difference, the corners of subtraction, and the
inverse law (R111, R114, R122). -/

namespace Sys2Proof.Machine

/-- R111: V of a sum is the library's signed overflow. -/
theorem add16_v_iff (lhs rhs : Word) :
    (add16 lhs rhs).flags.v = true ↔ lhs.toInt + rhs.toInt < -32768 ∨ 32767 < lhs.toInt + rhs.toInt := by
  have rule : (add16 lhs rhs).flags.v = lhs.saddOverflow rhs := by
    rw [add16_v, BitVec.saddOverflow_eq]
    cases lhs.msb <;> cases rhs.msb <;> cases (lhs + rhs).msb <;> rfl
  rw [rule, BitVec.saddOverflow, Bool.or_eq_true, decide_eq_true_iff, decide_eq_true_iff]
  omega

/-- Settles O2, through the library's overflow predicate. -/
theorem add16OverflowIsSignedOverflow : Obligations.Add16OverflowIsSignedOverflow := add16_v_iff

/-- R114: C of a difference says that nothing was borrowed, but for a right operand 0 (D29). -/
theorem sub16_c_iff (lhs rhs : Word) : (sub16 lhs rhs).flags.c = true ↔ rhs ≠ 0 ∧ rhs.toNat ≤ lhs.toNat := by
  have hzero : rhs = 0 ↔ rhs.toNat = 0 := BitVec.toNat_inj.symm
  have hl := lhs.isLt
  have hr := rhs.isLt
  rw [sub16_eq, add16_c, decide_eq_true_iff, BitVec.toNat_neg, ne_eq, hzero]
  omega

/-- R114: V of a difference is signed overflow, but for a right operand 0x8000. -/
theorem sub16_v_iff (lhs : Word) {rhs : Word} (h : rhs ≠ 0x8000) :
    (sub16 lhs rhs).flags.v = true ↔ lhs.toInt - rhs.toInt < -32768 ∨ 32767 < lhs.toInt - rhs.toInt := by
  rw [sub16_eq, add16_v_iff, BitVec.toInt_neg_of_ne_intMin h, Int.sub_eq_add_neg]

/-- R114: the negation of 0x8000 is itself, so V of a difference with it is bit 15 of the left operand (D29). -/
theorem sub16_v_of_min (lhs : Word) : (sub16 lhs 0x8000).flags.v = lhs.msb := by
  have hmin : (0x8000 : Word).toInt = -32768 := by decide
  have hneg : -(0x8000 : Word) = 0x8000 := by decide
  have hlow := BitVec.le_toInt lhs
  have hhigh := BitVec.toInt_lt (x := lhs)
  rw [Bool.eq_iff_iff, sub16_eq, hneg, add16_v_iff, hmin, BitVec.msb_eq_toInt, decide_eq_true_iff]
  omega

/-- Settles O4: the corner of C is in `sub16_c_iff`, that of V in the two lemmas after it. -/
theorem sub16FlagsInEveryCorner : Obligations.Sub16FlagsInEveryCorner := by
  intro lhs rhs
  refine ⟨sub16_c_iff lhs rhs, sub16_v_iff lhs, ?atMin, ?negative, ?zero⟩
  case atMin => rintro rfl; exact sub16_v_of_min lhs
  case negative => rw [sub16_eq, add16_n, ← BitVec.sub_eq_add_neg]
  case zero => rw [sub16_eq, add16_z, ← BitVec.sub_eq_add_neg, decide_eq_true_iff]; exact sub_eq_zero

/-- R122: the sum is the signed sum, truncated. -/
theorem add_eq_ofInt (lhs rhs : Word) : lhs + rhs = BitVec.ofInt 16 (lhs.toInt + rhs.toInt) := by
  rw [BitVec.ofInt_add, BitVec.ofInt_toInt, BitVec.ofInt_toInt]

/-- R122: the difference is the signed difference, truncated. -/
theorem sub_eq_ofInt (lhs rhs : Word) : lhs - rhs = BitVec.ofInt 16 (lhs.toInt - rhs.toInt) := by
  apply BitVec.eq_of_toInt_eq
  rw [BitVec.toInt_sub, BitVec.toInt_ofInt]

/-- A sum is known by its result and its four flags. -/
theorem SumOut.eq_of_fields {o : SumOut} {result : Word} {n z v c : Bool} (hresult : o.result = result)
    (hn : o.flags.n = n) (hz : o.flags.z = z) (hv : o.flags.v = v) (hc : o.flags.c = c) :
    o = { result := result, flags := { n := n, z := z, v := v, c := c } } := by
  rw [← hresult, ← hn, ← hz, ← hv, ← hc]

/-- R122: adding 0 keeps the value and clears V and C. -/
theorem add16_zero (v : Word) :
    add16 v 0 = { result := v, flags := { n := v.msb, z := decide (v = 0), v := false, c := false } } := by
  have hsum : v + 0 = v := BitVec.add_zero v
  apply SumOut.eq_of_fields
  case hresult => rw [add16_result, hsum]
  case hn => rw [add16_n, hsum]
  case hz => rw [add16_z, hsum]; rfl
  case hv => rw [add16_v, hsum, bne_self_eq_false, Bool.and_false]
  case hc =>
    have hfits : ¬65536 ≤ v.toNat + 0 := by have := v.isLt; omega
    rw [add16_c]
    exact decide_eq_false hfits

/-- R122: a value minus itself, with the two corners of R114 at 0 and 0x8000. -/
theorem sub16_self (v : Word) :
    sub16 v v = { result := 0, flags := { n := false, z := true, v := decide (v = 0x8000), c := decide (v ≠ 0) } } := by
  have hdiff : v + -v = 0 := add_neg_cancel v
  apply SumOut.eq_of_fields
  case hresult => rw [sub16_eq, add16_result, hdiff]
  case hn => rw [sub16_eq, add16_n, hdiff]; rfl
  case hz => rw [sub16_eq, add16_z, hdiff]; rfl
  case hv =>
    by_cases hmin : v = 0x8000
    · rw [hmin, sub16_v_of_min]; decide
    · rw [decide_eq_false hmin, Bool.eq_false_iff, ne_eq, sub16_v_iff v hmin]; omega
  case hc => rw [Bool.eq_iff_iff, sub16_c_iff, decide_eq_true_iff]; exact and_iff_left le_rfl

/-- Settles O5: word arithmetic is a group, and truncation of the signed sum and difference respects it. -/
theorem addAndSubAreInverse : Obligations.AddAndSubAreInverse := by
  intro lhs rhs v
  refine ⟨?inverse, ?sum, ?difference, add16_zero v, sub16_self v⟩
  case inverse => rw [sub16_result, add16_result]; exact add_sub_cancel_right lhs rhs
  case sum => rw [add16_result, add_eq_ofInt]
  case difference => rw [sub16_result, sub_eq_ofInt]

end Sys2Proof.Machine
end

section
/-! PROOFS of 20_memory.md, words, and of 70_reset_and_hazards.md: the bytes a word write sets (R44) and the reset port
(R27, R302). -/

namespace Sys2Proof.Machine

/-! ### Word writes -/

/-- R9: the high byte is the quotient by 256. -/
theorem toNat_hiByte (w : Word) : (hiByte w).toNat = w.toNat / 256 := by
  have hw := toNat_joinBytes (hiByte w) (loByte w)
  have hlo := (loByte w).isLt
  rw [joinBytes_hi_lo] at hw
  omega

/-- R9: the low byte is the remainder by 256. -/
theorem toNat_loByte (w : Word) : (loByte w).toNat = w.toNat % 256 := by
  have hw := toNat_joinBytes (hiByte w) (loByte w)
  have hlo := (loByte w).isLt
  rw [joinBytes_hi_lo] at hw
  omega

/-- R44: a word write changes its two bytes alone. -/
theorem Memory.read_writeWord_ne (m : Memory) {a b : Word} (v : Word) (hhigh : b ≠ a) (hlow : b ≠ a + 1) :
    Memory.read (Memory.writeWord m a v) b = Memory.read m b := by
  rw [Memory.read_writeWord, if_neg hlow, if_neg hhigh]

/-- Settles O10: the two bytes as numbers, the frame and the word read back. -/
theorem wordWriteSetsTwoBytes : Obligations.WordWriteSetsTwoBytes := by
  intro m a v
  refine ⟨?high, ?low, fun _ => Memory.read_writeWord_ne m v, Memory.readWord_writeWord m a v⟩
  case high => rw [Memory.read_writeWord, if_neg (Word.succ_ne a).symm, if_pos rfl, toNat_hiByte]
  case low => rw [Memory.read_writeWord, if_pos rfl, toNat_loByte]

/-! ### Reset -/

/-- Settles O18: each field by its value; memory with nothing listed reads zero. -/
theorem resetGivesTheStatedValues : Obligations.ResetGivesTheStatedValues :=
  ⟨rfl, rfl, rfl, rfl, rfl, rfl, rfl, rfl, rfl, rfl, rfl, Memory.read_nil, rfl, rfl, rfl, rfl, rfl, rfl, rfl, rfl, rfl⟩

/-- Settles O19: the reset memory lists nothing, and the flags are clear. -/
theorem resetMeetsTheInvariant : Obligations.ResetMeetsTheInvariant where
  canonicalMemory := Memory.wf_reset
  noErrorWhileRunning _ := rfl
  notNegativeZero := by decide

/-- R302: the copy of an image that fits puts byte `k` at address `k`, and leaves zero beyond it. -/
theorem Memory.read_image {image : List Byte} (hlen : image.length ≤ 65536) {k : Nat} (hk : k < 65536) :
    Memory.read (Memory.writeBytes [] 0 image) (BitVec.ofNat 16 k) = image.getD k 0 := by
  have hoffset : (BitVec.ofNat 16 k - 0).toNat = k := by simp; omega
  rw [Memory.read_writeBytes _ _ _ _ hlen, hoffset, List.getD_eq_getElem?_getD]
  split
  case isTrue hin => rw [List.getElem?_eq_getElem hin, Option.getD_some]
  case isFalse hout => rw [List.getElem?_eq_none (by omega), Option.getD_none]; rfl

/-- Settles O20: an image that fits is copied into the empty memory, and the rest is the reset state. -/
theorem resetLoadsTheImage : Obligations.ResetLoadsTheImage := by
  intro cfg image input
  refine ⟨fun hfits => ⟨_, if_pos hfits, fun k => Memory.read_image hfits, rfl, ?invariant⟩,
    fun hlong => if_neg (by omega)⟩
  case invariant => exact {
    canonicalMemory := Memory.wf_writeBytes 0 image Memory.wf_reset
    noErrorWhileRunning := fun _ => rfl
    notNegativeZero := resetMeetsTheInvariant.notNegativeZero }

end Sys2Proof.Machine
end

section
/-! PROOFS of 44_unary.md: the moves and the six single-register operations (R180 to R188). All of them advance PC by 1,
write one register and give the flags: `State.writeU` says that once, and each instruction is an equation with it. -/

namespace Sys2Proof.Machine

/-! ### Frames from fields -/

/-- Memory that is the same list reads the same. -/
theorem SameMemory.of_mem {s t : State} (h : t.mem = s.mem) : SameMemory s t := fun _ => by rw [h]

/-! ### Flags of a result -/

/-- N and Z of `w`, V and C as they were (R16). -/
def Flags.withNZ (f : Flags) (w : Word) : Flags := { f with n := w.msb, z := decide (w = 0) }

/-- N and Z of `w` where the parameter says so (D4), all flags as they were where it does not. -/
def Flags.withNZWhen (f : Flags) (cond : Bool) (w : Word) : Flags := if cond then f.withNZ w else f

@[simp] theorem Flags.withNZWhen_v (f : Flags) (cond : Bool) (w : Word) : (f.withNZWhen cond w).v = f.v := by
  cases cond <;> rfl

@[simp] theorem Flags.withNZWhen_c (f : Flags) (cond : Bool) (w : Word) : (f.withNZWhen cond w).c = f.c := by
  cases cond <;> rfl

/-- The conditional write of N and Z writes those flags. -/
theorem setNZWhen_eq (s : State) (cond : Bool) (w : Word) :
    s.setNZWhen cond w = s.setFlags (s.flags.withNZWhen cond w) := by
  cases cond <;> rfl

/-! ### The shape of a single-register instruction -/

/-- A format U instruction that writes `v` to `R[r]` and leaves the flags `f`. -/
def State.writeU (s : State) (r : Reg) (v : Word) (f : Flags) : State := (s.enterU.setReg r v).setFlags f

section WriteU

variable (s : State) (r : Reg) (v : Word) (f : Flags)

@[simp] theorem writeU_reg : (s.writeU r v f).reg r = v := by simp [State.writeU]
@[simp] theorem writeU_flags : (s.writeU r v f).flags = f := rfl

/-- What such an instruction does besides: PC moves by 1, and nothing else changes (R188). -/
theorem writeU_frame :
    (s.writeU r v f).pc = s.pc + 1 ∧ SameRegsBut r s (s.writeU r v f) ∧ SameMemory s (s.writeU r v f) ∧
      SameScratch s (s.writeU r v f) ∧ SameAround s (s.writeU r v f) := by
  have others : ∀ q, q ≠ r → (s.writeU r v f).reg q = s.reg q := fun q hq => by
    simp [State.writeU, State.setReg_reg_ne _ _ _ _ hq]
  refine ⟨?pc, ⟨others, ?sp⟩, SameMemory.of_mem ?mem, ⟨?spec, ?mode, ?operand⟩, ⟨?input, ?output⟩, ⟨?run, ?err⟩,
    ?ir, ?trace, ?cfg, ?freeIndex⟩ <;> simp [State.writeU]

end WriteU

/-! ### The instructions -/

section Meanings

variable (r : Reg) (s : State)

/-- R180 -/
theorem execMovspa_eq : execMovspa s = .next (s.writeU .a s.sp s.flags) := rfl

/-- R182 -/
theorem execNotr_eq : execNotr r s = .next (s.writeU r (~~~s.reg r) (s.flags.withNZ (~~~s.reg r))) := by
  simp [execNotr, State.writeU, Flags.withNZ]

/-- R183 -/
theorem execNegr_eq : execNegr r s =
    .next (s.writeU r (-s.reg r) { s.flags.withNZ (-s.reg r) with v := decide (-s.reg r = 0x8000) }) := by
  simp [execNegr, State.writeU, Flags.withNZ, State.setFlags]

/-- R184 -/
theorem execAslr_eq : execAslr r s = .next (s.writeU r (asl16 (s.reg r)).result
    ({ s.flags with v := (asl16 (s.reg r)).v, c := (asl16 (s.reg r)).c }.withNZWhen s.cfg.shiftSetsNZ
      (asl16 (s.reg r)).result)) := by
  simp [execAslr, State.writeU, setNZWhen_eq, State.setFlags]

/-- R185 -/
theorem execAsrr_eq : execAsrr r s = .next (s.writeU r (asr16 (s.reg r)).result
    ({ s.flags with c := (asr16 (s.reg r)).c }.withNZWhen s.cfg.shiftSetsNZ (asr16 (s.reg r)).result)) := by
  simp [execAsrr, State.writeU, setNZWhen_eq, State.setFlags]

/-- R186 -/
theorem execRolr_eq : execRolr r s = .next (s.writeU r (rol16 (s.reg r) s.flags.c).result
    { s.flags with c := (s.reg r).msb }) := by
  simp [execRolr, State.writeU]

/-- R187 -/
theorem execRorr_eq : execRorr r s = .next (s.writeU r (ror16 (s.reg r) s.flags.c).result
    { s.flags with c := (s.reg r).getLsbD 0 }) := by
  simp [execRorr, State.writeU]

/-- R181: `any` counts one more free value drawn (log 5). -/
theorem execMovflga_eq : execMovflga s = .next
    { s.writeU .a (s.movflgaUpper ++ s.flags.pack) s.flags with
      freeIndex := if s.cfg.movflgaUpper = .any then s.freeIndex + 1 else s.freeIndex } := by
  by_cases h : s.cfg.movflgaUpper = .any
  · simp only [execMovflga, if_pos h]; rfl
  · simp only [execMovflga, if_neg h]; rfl

end Meanings

/-! ### The moves -/

/-- Settles O41: MOVSPA writes A and leaves the flags. -/
theorem movspaCopiesSp : Obligations.MovspaCopiesSp := by
  intro s
  obtain ⟨hpc, hregs, hrest⟩ := writeU_frame s .a s.sp s.flags
  exact ⟨_, execMovspa_eq s, rfl, hpc, hregs, rfl, hrest⟩

/-- R24: the bits of the packed flags. -/
theorem pack_getLsbD (f : Flags) :
    f.pack.getLsbD 0 = f.c ∧ f.pack.getLsbD 1 = f.v ∧ f.pack.getLsbD 2 = f.z ∧ f.pack.getLsbD 3 = f.n := by
  obtain ⟨n, z, v, c⟩ := f
  revert n z v c
  decide

/-- Bit `i` of a word put together of 12 bits above 4. -/
theorem getLsbD_append_four (hi : BitVec 12) (lo : BitVec 4) (i : Nat) :
    (hi ++ lo : Word).getLsbD i = if i < 4 then lo.getLsbD i else hi.getLsbD (i - 4) :=
  BitVec.getLsbD_append

/-- R181, preserve: bits 15:4 stand at their own places again. -/
theorem movflgaUpper_preserve {s : State} (h : s.cfg.movflgaUpper = .preserve) {i : Nat} (hi : 4 ≤ i) :
    s.movflgaUpper.getLsbD (i - 4) = s.a.getLsbD i := by
  have hplace : 4 + (i - 4) = i := by omega
  simp only [State.movflgaUpper, h, BitVec.getLsbD_extractLsb', hplace]
  obtain hin | hout : i - 4 < 12 ∨ 16 ≤ i := by omega
  · rw [decide_eq_true hin, Bool.true_and]
  · rw [BitVec.getLsbD_of_ge s.a i hout, Bool.and_false]

/-- Settles O42: the four low bits are the packed flags, the bits above them follow the parameter. -/
theorem movflgaPacksTheFlags : Obligations.MovflgaPacksTheFlags := by
  intro s
  obtain ⟨hc, hv, hz, hn⟩ := pack_getLsbD s.flags
  obtain ⟨hpc, hregs, hmem, hscratch, hstreams, hrun, hir, htrace, hcfg, _⟩ :=
    writeU_frame s .a (s.movflgaUpper ++ s.flags.pack) s.flags
  have low {i : Nat} (hi : i < 4) : (s.movflgaUpper ++ s.flags.pack : Word).getLsbD i = s.flags.pack.getLsbD i := by
    rw [getLsbD_append_four, if_pos hi]
  have high {i : Nat} (hi : 4 ≤ i) :
      (s.movflgaUpper ++ s.flags.pack : Word).getLsbD i = s.movflgaUpper.getLsbD (i - 4) := by
    rw [getLsbD_append_four, if_neg (by omega)]
  refine ⟨_, execMovflga_eq s, ?c, ?v, ?z, ?n, ?preserve, ?clear, hpc, hregs, rfl, hmem, hscratch, hstreams, hrun, hir,
    htrace, hcfg, rfl⟩
  case c => exact (low (by decide)).trans hc
  case v => exact (low (by decide)).trans hv
  case z => exact (low (by decide)).trans hz
  case n => exact (low (by decide)).trans hn
  case preserve => intro h i hi; exact (high hi).trans (movflgaUpper_preserve h hi)
  case clear =>
    intro h i hi
    refine (high hi).trans ?_
    simp [State.movflgaUpper, h]

/-! ### Complement and negate -/

/-- Settles O43: the negation is 0 exactly for 0, and 0x8000 exactly for 0x8000 (D28). -/
theorem complementAndNegateWriteTheRegister : Obligations.ComplementAndNegateWriteTheRegister := by
  have neg_zero_iff (v : Word) : -v = 0 ↔ v = 0 := neg_eq_zero
  have neg_min_iff (v : Word) : -v = 0x8000 ↔ v = 0x8000 := by rw [neg_eq_iff_eq_neg]; rfl
  refine ⟨fun r s => ⟨_, execNotr_eq r s, writeU_reg .., ?not, writeU_frame ..⟩,
    fun r s => ⟨_, execNegr_eq r s, writeU_reg .., ?neg, writeU_frame ..⟩⟩
  case not => rw [writeU_reg]; rfl
  case neg => simp only [writeU_reg, writeU_flags, Flags.withNZ, neg_zero_iff, neg_min_iff]

/-! ### Shifts -/

/-- R115: a shift left by one doubles. -/
theorem asl16_result_eq_add (v : Word) : (asl16 v).result = v + v := by
  apply BitVec.eq_of_toNat_eq
  rw [asl16_result, BitVec.toNat_shiftLeft, BitVec.toNat_add, Nat.shiftLeft_eq]
  omega

/-- R116: the arithmetic shift right is the library's. -/
theorem asr16_result_eq_sshiftRight (v : Word) : (asr16 v).result = v.sshiftRight 1 := by
  apply BitVec.eq_of_getLsbD_eq
  intro i hi
  rw [asr16_getLsbD v i hi, BitVec.getLsbD_sshiftRight, decide_eq_false (by omega), BitVec.msb_eq_getLsbD_last]
  obtain rfl | hlow : i = 15 ∨ i < 15 := by omega
  · rfl
  · rw [if_neg (by omega), if_pos (by omega), Nat.add_comm, Bool.not_false, Bool.true_and]

/-- R116: it halves the signed value, rounding down. -/
theorem asr16_toInt (v : Word) : (asr16 v).result.toInt = v.toInt / 2 := by
  rw [asr16_result_eq_sshiftRight, BitVec.toInt_sshiftRight, Int.shiftRight_eq_div_pow]
  rfl

/-- Where SHIFT_SETS_NZ is off, N and Z are as before; where it is on, they are those of the result. -/
theorem withNZWhen_nz (f : Flags) (cond : Bool) (w : Word) :
    (cond = false → (f.withNZWhen cond w).n = f.n ∧ (f.withNZWhen cond w).z = f.z) ∧
    (cond = true → (f.withNZWhen cond w).n = w.msb ∧ (f.withNZWhen cond w).z = decide (w = 0)) := by
  constructor <;> rintro rfl <;> exact ⟨rfl, rfl⟩

/-- Settles O44: V of a shift left compares the sign of the result with that of the register. -/
theorem shiftsWriteTheRegisterAndCarry : Obligations.ShiftsWriteTheRegisterAndCarry := by
  refine ⟨fun r s => ?left, fun r s => ?right⟩
  case left =>
    obtain ⟨hkept, hset⟩ := withNZWhen_nz { s.flags with v := (asl16 (s.reg r)).v, c := (asl16 (s.reg r)).c }
      s.cfg.shiftSetsNZ (asl16 (s.reg r)).result
    refine ⟨_, execAslr_eq r s, ?double, ?carry, ?overflow, hkept, ?set, writeU_frame ..⟩
    case double => rw [writeU_reg, asl16_result_eq_add]
    case carry => rw [writeU_flags, Flags.withNZWhen_c, asl16_c]
    case overflow =>
      rw [writeU_reg, writeU_flags, Flags.withNZWhen_v, asl16_v, asl16_result, Bool.xor_iff_ne]
      exact ne_comm
    case set => rwa [writeU_reg]
  case right =>
    obtain ⟨hkept, hset⟩ := withNZWhen_nz { s.flags with c := (asr16 (s.reg r)).c } s.cfg.shiftSetsNZ
      (asr16 (s.reg r)).result
    refine ⟨_, execAsrr_eq r s, ?half, ?carry, ?overflow, hkept, ?set, writeU_frame ..⟩
    case half => rw [writeU_reg, asr16_toInt]
    case carry => rw [writeU_flags, Flags.withNZWhen_c, asr16_c]
    case overflow => rw [writeU_flags, Flags.withNZWhen_v]
    case set => rwa [writeU_reg]

/-! ### Rotations -/

/-- R117: a rotation left doubles and adds the carry that comes in, in the bit the shift left free. -/
theorem rol16_toNat (v : Word) (cin : Bool) : (rol16 v cin).result.toNat = (2 * v.toNat + cin.toNat) % 65536 := by
  have hshift : (v <<< 1).toNat = 2 ^ 1 * (v.toNat % 32768) := by
    rw [BitVec.toNat_shiftLeft, Nat.shiftLeft_eq]; omega
  have hcarry : (if cin then 0x0001#16 else 0#16).toNat = cin.toNat := by cases cin <;> rfl
  have hfits : cin.toNat < 2 ^ 1 := Bool.toNat_lt cin
  rw [rol16, BitVec.toNat_or, hshift, hcarry, ← Nat.two_pow_add_eq_or_of_lt hfits]
  omega

/-- R118: a rotation right halves and adds the carry that comes in, in bit 15, which the shift left free. -/
theorem ror16_toNat (v : Word) (cin : Bool) : (ror16 v cin).result.toNat = v.toNat / 2 + 32768 * cin.toNat := by
  have hv := v.isLt
  have hshift : (v >>> 1).toNat = v.toNat / 2 := by
    rw [BitVec.toNat_ushiftRight, Nat.shiftRight_eq_div_pow]
  have hcarry : (if cin then 0x8000#16 else 0#16).toNat = 2 ^ 15 * cin.toNat := by cases cin <;> rfl
  have hfits : v.toNat / 2 < 2 ^ 15 := by omega
  rw [ror16, BitVec.toNat_or, hshift, hcarry, Nat.or_comm, ← Nat.two_pow_add_eq_or_of_lt hfits, Nat.add_comm]

/-- Settles O45: both rotations take the C of the start and write no flag but C. -/
theorem rotatesWriteTheRegisterAndCarry : Obligations.RotatesWriteTheRegisterAndCarry := by
  refine ⟨fun r s => ⟨_, execRolr_eq r s, ?left, rfl, writeU_frame ..⟩,
    fun r s => ⟨_, execRorr_eq r s, ?right, rfl, writeU_frame ..⟩⟩
  case left => rw [writeU_reg, rol16_toNat]
  case right => rw [writeU_reg, ror16_toNat]

end Sys2Proof.Machine
end

section
/-! PROOFS of 43_control.md: halt, branches, call, return and the no-ops (R150 to R165). -/

namespace Sys2Proof.Machine

/-! ### Phase 3 alone -/

/-- R133: phase 3 of a format U instruction moves PC by 1 and nothing else. -/
theorem enterU_frame (s : State) :
    s.enterU.pc = s.pc + 1 ∧ SameRegs s s.enterU ∧ s.enterU.flags = s.flags ∧ SameMemory s s.enterU ∧
      SameScratch s s.enterU ∧ SameAround s s.enterU :=
  ⟨rfl, ⟨rfl, rfl, rfl⟩, rfl, SameMemory.of_mem rfl, ⟨rfl, rfl, rfl⟩, ⟨rfl, rfl⟩, ⟨rfl, rfl⟩, rfl, rfl, rfl, rfl⟩

/-- R133: phase 3 of a format S instruction moves PC by 3, writes the scratch and nothing else. -/
theorem enterS_frame (s : State) (mode : AddrMode) (spec operand : Word) :
    (s.enterS mode spec operand).pc = s.pc + 3 ∧ ScratchIs (s.enterS mode spec operand) spec mode operand ∧
      SameRegs s (s.enterS mode spec operand) ∧ (s.enterS mode spec operand).flags = s.flags ∧
      SameMemory s (s.enterS mode spec operand) ∧ SameAround s (s.enterS mode spec operand) :=
  ⟨rfl, ⟨rfl, rfl, rfl⟩, ⟨rfl, rfl, rfl⟩, rfl, SameMemory.of_mem rfl, ⟨rfl, rfl⟩, ⟨rfl, rfl⟩, rfl, rfl, rfl, rfl⟩

/-- Settles O40: both kinds of no-op are phase 3 alone. -/
theorem noOpsOnlyAdvance : Obligations.NoOpsOnlyAdvance :=
  ⟨fun _ s => ⟨s.enterU, rfl, enterU_frame s⟩,
    fun spec s => ⟨s.enterS .immediate spec spec, rfl, enterS_frame s .immediate spec spec⟩⟩

/-! ### Halt and unsupported-return -/

/-- Settles O35: STOP and RETTR are phase 3 and then a write of RUN, by RETTR of ERR too. -/
theorem stopAndRettrHaltTheMachine : Obligations.StopAndRettrHaltTheMachine := by
  refine ⟨fun s => ?stop, fun s => ?rettr⟩
  all_goals obtain ⟨hpc, hregs, hflags, hmem, hscratch, hstreams, -, hrest⟩ := enterU_frame s
  case stop => exact ⟨s.enterU.halt, rfl, rfl, rfl, hpc, hregs, hflags, hmem, hscratch, hstreams, hrest⟩
  case rettr =>
    exact ⟨s.enterU.raise .unsupportedInstruction, rfl, rfl, rfl, hpc, hregs, hflags, hmem, hscratch, hstreams, hrest⟩

/-! ### Branches -/

/-- R165, D24: the target is the value-strategy operand of the mode bit's addressing mode. -/
theorem branchTarget_eq_valueOf (s : State) (mode : BranchMode) (spec : Word) :
    branchTarget s mode spec = s.valueOf (branchAddrMode mode) spec := by
  cases mode <;> rfl

/-- The nine branches share their effect and differ in the condition alone (R165). -/
theorem branchesOn_of_exec {branch : BranchMode → Word → Instr} {cond : Flags → Bool}
    (h : ∀ mode spec s, exec (branch mode spec) s = .next (s.branchWhen (cond s.flags) mode spec)) :
    BranchesOn branch cond := by
  intro mode spec s
  obtain ⟨-, hscratch, hregs, hflags, hmem, haround⟩ :=
    enterS_frame s (branchAddrMode mode) spec (branchTarget s mode spec)
  rw [branchTarget_eq_valueOf] at *
  exact ⟨_, (h mode spec s).trans (congrArg _ (branchWhen_eq s _ mode spec)), rfl, hscratch, hregs, hflags, hmem, haround⟩

/-- Settles O36: each branch names its condition. -/
theorem branchesFollowTheirConditions : Obligations.BranchesFollowTheirConditions := by
  refine ⟨?br, ?brle, ?brlt, ?breq, ?brne, ?brge, ?brgt, ?brv, ?brc⟩ <;>
    exact branchesOn_of_exec fun _ _ _ => rfl

/-! ### Call and return -/

/-- R161: what CALL leaves, with the target read before the push. -/
theorem execCall_eq (mode : BranchMode) (spec : Word) (s : State) :
    execCall mode spec s = .next
      { s.enterS (branchAddrMode mode) spec (branchTarget s mode spec) with
        pc := branchTarget s mode spec, sp := s.sp - 2, mem := Memory.writeWord s.mem (s.sp - 2) (s.pc + 3) } := by
  rw [branchTarget_eq_valueOf]
  rfl

/-- R44: the two bytes of a word write, in terms of the frame. -/
theorem SameMemoryBut.of_writeWord {s t : State} {ea v : Word} (h : t.mem = Memory.writeWord s.mem ea v) :
    SameMemoryBut [ea, ea + 1] s t := by
  intro b hb
  rw [List.mem_cons, List.mem_singleton, not_or] at hb
  rw [h, Memory.read_writeWord_ne _ _ hb.1 hb.2]

/-- R43: the one byte of a byte write, in terms of the frame. -/
theorem SameMemoryBut.of_write {s t : State} {ea : Word} {v : Byte} (h : t.mem = Memory.write s.mem ea v) :
    SameMemoryBut [ea] s t := by
  intro b hb
  rw [h, Memory.read_write_ne _ _ _ _ (List.mem_singleton.not.mp hb)]

/-- The low byte of a pushed word stands one below the old SP. -/
theorem sub_two_add_one (sp : Word) : sp - 2 + 1 = sp - 1 := by bv_omega

/-- Settles O37: the word pushed is the advanced PC, at the two bytes below the old SP. -/
theorem callPushesTheReturnAddress : Obligations.CallPushesTheReturnAddress := by
  intro mode spec s
  obtain ⟨-, hscratch, ⟨ha, hx, -⟩, hflags, -, haround⟩ :=
    enterS_frame s (branchAddrMode mode) spec (branchTarget s mode spec)
  refine ⟨_, execCall_eq mode spec s, rfl, rfl, Memory.readWord_writeWord .., ?frame, hscratch, ha, hx, hflags, haround⟩
  case frame => rw [← sub_two_add_one]; exact SameMemoryBut.of_writeWord rfl

/-- R162: what RETn leaves under either direction. -/
theorem execRetn_eq (count : BitVec 3) (s : State) :
    execRetn count s = .next
      { s with
        pc := Memory.readWord s.mem (retSp s.cfg.retSpDirection s.sp (count.setWidth 16)),
        sp := retSp s.cfg.retSpDirection (retSp s.cfg.retSpDirection s.sp (count.setWidth 16)) 2 } := by
  simp only [execRetn, retAdjust_eq]
  rfl

/-- Settles O38: the two directions are the two cases of `retSp`. -/
theorem returnReadsItsAddressAtSp : Obligations.ReturnReadsItsAddressAtSp := by
  intro count s
  obtain ⟨-, ⟨ha, hx, -⟩, hflags, hmem, hscratch, haround⟩ := enterU_frame s
  refine ⟨_, execRetn_eq count s, ?sub, ?add, ha, hx, hflags, hmem, hscratch, haround⟩ <;>
    intro hdir <;> rw [hdir] <;> exact ⟨rfl, rfl⟩

/-- Settles O39: RET0 reads at the SP that CALL left, where the pushed word stands, and then moves SP by 2. -/
theorem callThenReturnComesBack : Obligations.CallThenReturnComesBack := by
  intro mode spec s
  have hcount : (0 : BitVec 3).setWidth 16 = (0 : Word) := rfl
  have hstay (d : RetSpDirection) (sp : Word) : retSp d sp 0 = sp := by
    cases d
    case sub => exact BitVec.sub_zero sp
    case add => exact BitVec.add_zero sp
  refine ⟨_, _, execCall_eq mode spec s, execRetn_eq 0 _, ?pc, ?sp, ?frame, rfl, rfl, rfl⟩
  case pc =>
    rw [hcount, hstay]
    exact Memory.readWord_writeWord ..
  case sp =>
    rw [hcount, hstay]
    cases hdir : s.cfg.retSpDirection <;> simp only [State.enterS_eq, State.advance_cfg, State.setScratch_cfg, hdir, retSp]
    case sub => bv_omega
    case add => bv_omega
  case frame => rw [← sub_two_add_one]; exact SameMemoryBut.of_writeWord rfl

end Sys2Proof.Machine
end

section
/-! PROOFS of 45_load_store.md and 46_arith_logic.md: the value-strategy instructions that write a register, the compare,
the stack adjusts and the stores (R200 to R204, R220 to R227). `State.writeS` is the shape most of them share. -/

namespace Sys2Proof.Machine

/-! ### The shapes -/

/-- A value-strategy instruction that writes `v` to `R[r]` and leaves the flags `f`. -/
def State.writeS (s : State) (mode : AddrMode) (spec : Word) (r : Reg) (v : Word) (f : Flags) : State :=
  ((s.enterValue mode spec).setReg r v).setFlags f

/-- A value-strategy instruction that moves SP to `v` and leaves the flags `f`. -/
def State.writeSp (s : State) (mode : AddrMode) (spec v : Word) (f : Flags) : State :=
  ((s.enterValue mode spec).setSp v).setFlags f

section Shapes

variable (s : State) (mode : AddrMode) (spec : Word) (r : Reg) (v : Word) (f : Flags)

@[simp] theorem writeS_reg : (s.writeS mode spec r v f).reg r = v := by simp [State.writeS]
@[simp] theorem writeS_flags : (s.writeS mode spec r v f).flags = f := rfl

/-- What such an instruction does besides: PC moves by 3, the scratch is written, and nothing else changes (R227). -/
theorem writeS_frame :
    (s.writeS mode spec r v f).pc = s.pc + 3 ∧ ScratchIs (s.writeS mode spec r v f) spec mode (s.valueOf mode spec) ∧
      SameRegsBut r s (s.writeS mode spec r v f) ∧ SameMemory s (s.writeS mode spec r v f) ∧
      SameAround s (s.writeS mode spec r v f) := by
  have others : ∀ q, q ≠ r → (s.writeS mode spec r v f).reg q = s.reg q := fun q hq => by
    simp [State.writeS, State.setReg_reg_ne _ _ _ _ hq]
  refine ⟨?pc, ⟨?spec, ?mode, ?operand⟩, ⟨others, ?sp⟩, SameMemory.of_mem ?mem, ⟨?input, ?output⟩, ⟨?run, ?err⟩,
    ?ir, ?trace, ?cfg, ?freeIndex⟩ <;> simp [State.writeS]

/-- A stack adjust leaves everything else but PC and the scratch as well. -/
theorem writeSp_frame :
    (s.writeSp mode spec v f).pc = s.pc + 3 ∧ ScratchIs (s.writeSp mode spec v f) spec mode (s.valueOf mode spec) ∧
      (s.writeSp mode spec v f).a = s.a ∧ (s.writeSp mode spec v f).x = s.x ∧
      SameMemory s (s.writeSp mode spec v f) ∧ SameAround s (s.writeSp mode spec v f) := by
  obtain ⟨hpc, hscratch, ⟨ha, hx, -⟩, -, hmem, haround⟩ := enterS_frame s mode spec (s.valueOf mode spec)
  exact ⟨hpc, hscratch, ha, hx, hmem, haround⟩

/-! ### The instructions -/

/-- R220 -/
theorem execAddr_eq : execAddr r mode spec s = .next
    (s.writeS mode spec r (s.reg r + s.valueOf mode spec) (add16 (s.reg r) (s.valueOf mode spec)).flags) := by
  simp [execAddr, State.writeS]

/-- R221 -/
theorem execSubr_eq : execSubr r mode spec s = .next
    (s.writeS mode spec r (s.reg r - s.valueOf mode spec) (sub16 (s.reg r) (s.valueOf mode spec)).flags) := by
  simp [execSubr, State.writeS]

/-- R222 -/
theorem execAndr_eq : execAndr r mode spec s = .next
    (s.writeS mode spec r (s.reg r &&& s.valueOf mode spec) (s.flags.withNZ (s.reg r &&& s.valueOf mode spec))) := by
  simp [execAndr, State.writeS, Flags.withNZ]

/-- R223 -/
theorem execOrr_eq : execOrr r mode spec s = .next
    (s.writeS mode spec r (s.reg r ||| s.valueOf mode spec) (s.flags.withNZ (s.reg r ||| s.valueOf mode spec))) := by
  simp [execOrr, State.writeS, Flags.withNZ]

/-- R224 -/
theorem execCpr_eq : execCpr r mode spec s = .next
    ((s.enterValue mode spec).setFlags (sub16 (s.reg r) (s.valueOf mode spec)).flags) := by
  simp [execCpr]

/-- R225 -/
theorem execAddsp_eq : execAddsp mode spec s = .next
    (s.writeSp mode spec (s.sp + s.valueOf mode spec) (add16 s.sp (s.valueOf mode spec)).flags) := by
  simp [execAddsp, State.writeSp]

/-- R226 -/
theorem execSubsp_eq : execSubsp mode spec s = .next
    (s.writeSp mode spec (s.sp - s.valueOf mode spec) (sub16 s.sp (s.valueOf mode spec)).flags) := by
  simp [execSubsp, State.writeSp]

/-- A load of `w`, with N and Z under LOAD_SETS_NZ (D4). -/
theorem loadReg_eq (w : Word) : (s.enterValue mode spec).loadReg r w =
    s.writeS mode spec r w (s.flags.withNZWhen s.cfg.loadSetsNZ w) := by
  simp [State.loadReg, State.writeS, setNZWhen_eq]

/-- R200 -/
theorem execLdr_eq : execLdr r mode spec s = .next
    (s.writeS mode spec r (s.valueOf mode spec) (s.flags.withNZWhen s.cfg.loadSetsNZ (s.valueOf mode spec))) :=
  congrArg _ (loadReg_eq ..)

/-- R201 -/
theorem execLdbyter_eq : execLdbyter r mode spec s = .next
    (s.writeS mode spec r (zeroExtend (hiByte (s.valueOf mode spec)))
      (s.flags.withNZWhen s.cfg.loadSetsNZ (zeroExtend (hiByte (s.valueOf mode spec))))) :=
  congrArg _ (loadReg_eq ..)

end Shapes

/-! ### Arithmetic and logic -/

/-- Settles O49: the sum and the difference by `writeS`, the compare by phase 3 and the flags. -/
theorem addSubtractCompareUpdateAllFlags : Obligations.AddSubtractCompareUpdateAllFlags := by
  refine ⟨fun r mode spec s => ⟨_, execAddr_eq s mode spec r, writeS_reg .., writeS_flags .., writeS_frame ..⟩,
    fun r mode spec s => ⟨_, execSubr_eq s mode spec r, writeS_reg .., writeS_flags .., writeS_frame ..⟩,
    fun r mode spec s => ⟨_, execCpr_eq s mode spec r, rfl, ?compare⟩⟩
  case compare =>
    obtain ⟨hpc, hscratch, hregs, -, hmem, haround⟩ := enterS_frame s mode spec (s.valueOf mode spec)
    exact ⟨hpc, hscratch, hregs, hmem, haround⟩

/-- Settles O50: `withNZ` leaves V and C. -/
theorem andOrUpdateNAndZ : Obligations.AndOrUpdateNAndZ := by
  refine ⟨fun r mode spec s => ⟨_, execAndr_eq s mode spec r, writeS_reg .., ?and, writeS_frame ..⟩,
    fun r mode spec s => ⟨_, execOrr_eq s mode spec r, writeS_reg .., ?or, writeS_frame ..⟩⟩ <;>
    rw [writeS_reg, writeS_flags, Flags.withNZ]

/-- Settles O51: the operand is resolved in the starting state, with the SP before the move. -/
theorem stackAdjustsMoveSp : Obligations.StackAdjustsMoveSp :=
  ⟨fun mode spec s => ⟨_, execAddsp_eq s mode spec, rfl, rfl, writeSp_frame ..⟩,
    fun mode spec s => ⟨_, execSubsp_eq s mode spec, rfl, rfl, writeSp_frame ..⟩⟩

/-! ### Loads -/

/-- R201: the high byte, zero-extended, is the quotient by 256. -/
theorem toNat_zeroExtend_hiByte (w : Word) : (zeroExtend (hiByte w)).toNat = w.toNat / 256 := by
  have hw := w.isLt
  rw [zeroExtend, BitVec.toNat_setWidth, toNat_hiByte]
  omega

/-- R201: a zero-extended byte is not negative. -/
theorem msb_zeroExtend (b : Byte) : (zeroExtend b).msb = false := by
  have hb := b.isLt
  rw [BitVec.msb_eq_decide, zeroExtend, BitVec.toNat_setWidth]
  exact decide_eq_false (by omega)

/-- Settles O46: the flags of both loads are those of `withNZWhen`; a byte is never negative. -/
theorem loadsCopyTheOperand : Obligations.LoadsCopyTheOperand := by
  refine ⟨fun r mode spec s => ⟨_, execLdr_eq s mode spec r, writeS_reg .., ?kept, ?set, writeS_frame ..⟩,
    fun r mode spec s => ⟨_, execLdbyter_eq s mode spec r, ?byte, ?keptByte, ?setByte, writeS_frame ..⟩⟩
  case kept | keptByte => intro h; rw [writeS_flags, h]; rfl
  case set => intro h; rw [writeS_flags, writeS_reg, h]; rfl
  case byte => rw [writeS_reg, toNat_zeroExtend_hiByte]
  case setByte => intro h; rw [writeS_flags, writeS_reg, h, ← msb_zeroExtend]; rfl

/-! ### Stores -/

section Stores

variable {s : State} {mode : AddrMode} {spec ea : Word}

/-- R71: the modes of the stores and the two inputs are those with an address, so where there is one they take effect. -/
theorem withAddress_of_addressOf {effect : State → Host.Outcome State Fault Refusal}
    (h : s.addressOf mode spec = some ea) :
    s.withAddress AddrMode.legalForAddress mode spec effect = effect (s.enterS mode spec ea) :=
  withAddress_of_legal (legalForAddress_of_addressOf h) h

/-- R202 -/
theorem execStr_eq (r : Reg) (h : s.addressOf mode spec = some ea) :
    execStr r mode spec s = .next ((s.enterS mode spec ea).storeWord ea (s.reg r)) := by
  rw [execStr, withAddress_of_addressOf h]
  simp

/-- R203 -/
theorem execStbyter_eq (r : Reg) (h : s.addressOf mode spec = some ea) :
    execStbyter r mode spec s = .next ((s.enterS mode spec ea).storeByte ea (hiByte (s.reg r))) := by
  rw [execStbyter, withAddress_of_addressOf h]
  simp

end Stores

/-- Settles O47: the word read back and the frame of a word write. -/
theorem storeWritesTheWordAtItsAddress : Obligations.StoreWritesTheWordAtItsAddress := by
  intro r mode spec s ea h
  obtain ⟨hpc, hscratch, hregs, hflags, -, haround⟩ := enterS_frame s mode spec ea
  exact ⟨_, execStr_eq r h, Memory.readWord_writeWord .., SameMemoryBut.of_writeWord rfl, hpc, hscratch, hregs, hflags,
    haround⟩

/-- Settles O48: the byte stored at the next opcode's address is the first that the fetch reads (R52). -/
theorem storeByteWritesTheHighByte : Obligations.StoreByteWritesTheHighByte := by
  intro r mode spec s ea h
  obtain ⟨hpc, hscratch, hregs, hflags, -, haround⟩ := enterS_frame s mode spec ea
  refine ⟨_, execStbyter_eq r h, ?byte, SameMemoryBut.of_write rfl, ?fetched, hpc, hscratch, hregs, hflags, haround⟩
  case byte => rw [← toNat_hiByte]; exact congrArg _ (Memory.read_write_self ..)
  case fetched => rintro rfl; exact congrArg some (Memory.read_write_self ..)

end Sys2Proof.Machine
end

section
/-! PROOFS of 47_io.md: the decimal reader and the decimal text, and the five input and output instructions (R240 to
R252). -/

namespace Sys2Proof.Machine

/-! ### The decimal reader (R244) -/

/-- The loop over a run of digits, up to a byte that is none: that byte is consumed (D9). -/
theorem readDigits_stop {digits : List Byte} {stop : Byte} (hdigits : digits.all isDigit = true)
    (hstop : isDigit stop = false) (rest : List Byte) (acc : Nat) :
    readDigits (digits ++ stop :: rest) acc = (digits.foldl (fun acc d => acc * 10 + digitValue d) acc, rest) := by
  induction digits generalizing acc with
  | nil => rw [List.nil_append, readDigits, hstop, if_neg (by decide), List.foldl_nil]
  | cons d ds ih =>
    rw [List.all_cons, Bool.and_eq_true] at hdigits
    rw [List.cons_append, readDigits, if_pos hdigits.1, ih hdigits.2, List.foldl_cons]

/-- The loop over a run of digits at the end of the stream: exhaustion ends the number too. -/
theorem readDigits_exhausted {digits : List Byte} (hdigits : digits.all isDigit = true) (acc : Nat) :
    readDigits digits acc = (digits.foldl (fun acc d => acc * 10 + digitValue d) acc, []) := by
  induction digits generalizing acc with
  | nil => rfl
  | cons d ds ih =>
    rw [List.all_cons, Bool.and_eq_true] at hdigits
    rw [readDigits, if_pos hdigits.1, ih hdigits.2, List.foldl_cons]

/-- After a minus the reader is the loop, negated (D10). -/
theorem readDecimal_minus (cont : Bool) (input : List Byte) :
    readDecimal cont (0x2D :: input) = (.ok (-((readDigits input 0).1 : Int)), (readDigits input 0).2) := rfl

/-- The minus is no digit. -/
theorem ne_minus_of_isDigit {b : Byte} (h : isDigit b = true) : b ≠ minusByte := by
  rintro rfl
  revert h
  decide

/-- From a first digit on the reader is the loop. -/
theorem readDecimal_digit (cont : Bool) {b : Byte} (hb : isDigit b = true) (input : List Byte) :
    readDecimal cont (b :: input) = (.ok ((readDigits (b :: input) 0).1 : Int), (readDigits (b :: input) 0).2) := by
  have hloop : readDigits (b :: input) 0 = readDigits input (digitValue b) := by
    rw [readDigits, if_pos hb, Nat.zero_mul, Nat.zero_add]
  rw [readDecimal, if_neg (ne_minus_of_isDigit hb), if_pos hb, hloop]

/-- A first byte that is neither gives the error, with that byte consumed (R273). -/
theorem readDecimal_other (cont : Bool) {b : Byte} (hb : isDigit b = false) (hminus : b ≠ minusByte) (input : List Byte) :
    readDecimal cont (b :: input) = (.error .inputFormatError, input) := by
  rw [readDecimal, if_neg hminus, if_neg (by rw [hb]; decide)]

/-- A run of digits without a minus begins with a digit, so the reader is the loop over it. -/
theorem readDecimal_run (cont : Bool) {digits : List Byte} (hdigits : digits.all isDigit = true) (hne : digits ≠ [])
    (tail : List Byte) : readDecimal cont (digits ++ tail) =
      (.ok ((readDigits (digits ++ tail) 0).1 : Int), (readDigits (digits ++ tail) 0).2) := by
  obtain ⟨d, ds, rfl⟩ := List.exists_cons_of_ne_nil hne
  rw [List.all_cons, Bool.and_eq_true] at hdigits
  exact readDecimal_digit cont hdigits.1 (ds ++ tail)

/-- Settles O52: the reader is the loop after a minus or from a first digit on, and the loop's value is `digitsValue`. -/
theorem decimalReaderReadsANumber : Obligations.DecimalReaderReadsANumber := by
  refine ⟨fun cont digits rest stop hdigits hstop => ⟨fun hne => ?stopped, fun hne => ?exhausted, ?minusStopped,
    ?minusExhausted⟩, fun cont b rest hb hminus => readDecimal_other cont hb hminus rest, rfl, rfl⟩
  case stopped => rw [readDecimal_run cont hdigits hne, readDigits_stop hdigits hstop]; rfl
  case exhausted =>
    have hrun := readDecimal_run cont hdigits hne []
    rw [List.append_nil, readDigits_exhausted hdigits] at hrun
    exact hrun
  case minusStopped => rw [readDecimal_minus, readDigits_stop hdigits hstop]; rfl
  case minusExhausted => rw [readDecimal_minus, readDigits_exhausted hdigits]; rfl

/-! ### The decimal text (R246) -/

/-- The number that decimal digits stand for, the first the most significant. -/
def numberOf (ds : List Nat) : Nat := ds.foldl (fun acc d => acc * 10 + d) 0

/-- What makes a list of digits the shortest decimal form of a number (D13). -/
structure IsShortestDecimal (n : Nat) (ds : List Nat) : Prop where
  nonempty : ds ≠ []
  digits : ∀ d ∈ ds, d < 10
  value : numberOf ds = n
  noLeadingZero : ds.head? = some 0 → ds = [0]

/-- One digit more at the end of the shortest form of a number that is not zero. -/
theorem IsShortestDecimal.append {n d : Nat} {ds : List Nat} (h : IsShortestDecimal n ds) (hn : 0 < n) (hd : d < 10) :
    IsShortestDecimal (n * 10 + d) (ds ++ [d]) where
  nonempty := by simp
  digits k hk := by
    obtain hk | hk := List.mem_append.mp hk
    · exact h.digits k hk
    · rwa [List.mem_singleton.mp hk]
  value := by rw [numberOf, List.foldl_append, List.foldl_cons, List.foldl_nil, ← numberOf, h.value]
  noLeadingZero hhead := by
    rw [List.head?_append_of_ne_nil _ h.nonempty] at hhead
    have hzero := h.value
    rw [h.noLeadingZero hhead] at hzero
    exact absurd hzero.symm (Nat.pos_iff_ne_zero.mp hn)

/-- With enough fuel for its digits, a number gets its shortest form. -/
theorem decimalDigits_shortest {fuel n : Nat} (hn : n < 10 ^ (fuel + 1)) :
    IsShortestDecimal n (decimalDigits (fuel + 1) n) := by
  induction fuel generalizing n with
  | zero =>
    rw [decimalDigits, if_pos (by omega)]
    exact ⟨by simp, by simpa using hn, Nat.zero_add n, fun h => by simpa using h⟩
  | succ fuel ih =>
    rw [decimalDigits]
    split
    case isTrue hone => exact ⟨by simp, by simpa using hone, Nat.zero_add n, fun h => by simpa using h⟩
    case isFalse hmore =>
      have hquot : n / 10 < 10 ^ (fuel + 1) := by rw [pow_succ] at hn; omega
      have hform := (ih hquot).append (by omega) (Nat.mod_lt n (by decide))
      rwa [Nat.div_add_mod'] at hform

/-- The byte of a decimal digit (R242; the codes of ASCII are PRESUMED, log 16). -/
def digitByte (d : Nat) : Byte := BitVec.ofNat 8 (0x30 + d)

/-- A digit's byte is a digit and stands for it. -/
theorem digitByte_spec {d : Nat} (h : d < 10) : isDigit (digitByte d) = true ∧ digitValue (digitByte d) = d := by
  interval_cases d <;> decide

/-- Digit bytes stand for the number of their digits. -/
theorem digitsValue_map {ds : List Nat} (h : ∀ d ∈ ds, d < 10) : digitsValue (ds.map digitByte) = numberOf ds := by
  rw [digitsValue, numberOf, List.foldl_map]
  exact List.foldl_ext _ _ 0 fun acc d hd => by rw [(digitByte_spec (h d hd)).2]

/-- R246: the text is the minus of a negative value and the digits of its magnitude. -/
theorem decimalText_eq (w : Word) : decimalText w =
    if w.toInt < 0 then 0x2D :: (decimalDigits 5 w.toInt.natAbs).map digitByte
    else (decimalDigits 5 w.toInt.natAbs).map digitByte := by
  rw [decimalText]
  split
  case isTrue => rfl
  case isFalse => rfl

/-- Settles O57: a word's magnitude has at most five digits. -/
theorem decimalTextIsShortest : Obligations.DecimalTextIsShortest := by
  intro w
  have hlow := BitVec.le_toInt w
  have hhigh := BitVec.toInt_lt (x := w)
  have hfive : w.toInt.natAbs < 10 ^ (4 + 1) := by omega
  obtain ⟨hne, hdigits, hvalue, hhead⟩ := decimalDigits_shortest hfive
  refine ⟨_, decimalText_eq w, ?nonempty, ?digits, ?value, ?head⟩
  case nonempty => simpa using hne
  case digits =>
    rw [List.all_map, List.all_eq_true]
    exact fun d hd => (digitByte_spec (hdigits d hd)).1
  case value => rw [digitsValue_map hdigits, hvalue]
  case head =>
    intro hzero
    obtain ⟨d, hd, hbyte⟩ : ∃ d, (decimalDigits 5 w.toInt.natAbs).head? = some d ∧ digitByte d = 0x30 := by
      rwa [List.head?_map, Option.map_eq_some_iff] at hzero
    have hd0 : d = 0 := by
      rw [← (digitByte_spec (hdigits d (List.mem_of_head? hd))).2, hbyte]
      rfl
    rw [hhead (hd.trans (congrArg some hd0))]
    rfl

/-- Settles O58: the text is a run of digits after a minus or none (O57), which the reader gives back (O52). -/
theorem decimalOutputReadsBack : Obligations.DecimalOutputReadsBack := by
  intro cont w stop rest hstop
  obtain ⟨digits, htext, hne, hdigits, hvalue, -⟩ := decimalTextIsShortest w
  obtain ⟨hplain, -, hminus, -⟩ := decimalReaderReadsANumber.1 cont digits rest stop hdigits hstop
  rw [htext]
  split
  case isTrue hneg => rw [List.cons_append, hminus, hvalue, Int.ofNat_natAbs_of_nonpos (by omega), Int.neg_neg]
  case isFalse hpos => rw [hplain hne, hvalue, Int.natAbs_of_nonneg (by omega)]

/-! ### Output -/

/-- An output instruction leaves everything else but PC and the scratch. -/
theorem put_frame (s : State) (mode : AddrMode) (spec operand : Word) (bytes : List Byte) :
    let t := (s.enterS mode spec operand).put bytes
    t.output = s.output ++ bytes ∧ t.input = s.input ∧ t.pc = s.pc + 3 ∧ ScratchIs t spec mode operand ∧ SameRegs s t ∧
      t.flags = s.flags ∧ SameMemory s t ∧ SameRun s t ∧ SameRest s t := by
  obtain ⟨hpc, hscratch, hregs, hflags, hmem, ⟨hinput, -⟩, hrun, hrest⟩ := enterS_frame s mode spec operand
  exact ⟨rfl, hinput, hpc, hscratch, hregs, hflags, hmem, hrun, hrest⟩

/-- R246 -/
theorem execDeco_eq (s : State) (mode : AddrMode) (spec : Word) : execDeco mode spec s = .next
    ((s.enterS mode spec (s.valueOf mode spec)).put (decimalText (s.valueOf mode spec))) := rfl

/-- R252 -/
theorem execCharo_eq (s : State) (mode : AddrMode) (spec : Word) : execCharo mode spec s = .next
    ((s.enterS mode spec (s.valueOf mode spec)).put [hiByte (s.valueOf mode spec)]) := rfl

/-- Settles O56: both are phase 3 and then a write to Out. -/
theorem decimalAndCharacterOutputAppend : Obligations.DecimalAndCharacterOutputAppend :=
  ⟨fun mode spec s => ⟨_, execDeco_eq s mode spec, put_frame ..⟩,
    fun mode spec s => ⟨_, execCharo_eq s mode spec, put_frame ..⟩⟩

section StringOutput

variable {s : State} {mode : AddrMode} {spec ea : Word}

/-- R247: where the scan ends, STRO puts its bytes. -/
theorem execStro_of_some {bytes : List Byte} (hl : mode.legalForString = true) (ha : s.addressOf mode spec = some ea)
    (hscan : scanString s.mem 65536 ea = some bytes) :
    execStro mode spec s = .next ((s.enterS mode spec ea).put bytes) := by
  rw [execStro, withAddress_of_legal hl ha]
  simp only [State.enterS_eq, State.advance_mem, State.setScratch_mem, State.advance_operand, State.setScratch_operand,
    hscan]

/-- R248: where the scan does not end, STRO does not either. -/
theorem execStro_of_none (hl : mode.legalForString = true) (ha : s.addressOf mode spec = some ea)
    (hscan : scanString s.mem 65536 ea = none) : execStro mode spec s = .fault .stringOutputNeverEnds := by
  rw [execStro, withAddress_of_legal hl ha]
  simp only [State.enterS_eq, State.advance_mem, State.setScratch_mem, State.advance_operand, State.setScratch_operand,
    hscan]

/-- R247: the scan finds the first zero byte. -/
theorem scanString_of_first_zero {m : Memory} {n fuel : Nat} {a : Word} (hn : n < fuel)
    (hbefore : ∀ k, k < n → Memory.read m (a + BitVec.ofNat 16 k) ≠ 0) (hzero : Memory.read m (a + BitVec.ofNat 16 n) = 0) :
    scanString m fuel a = some ((List.range n).map fun k => Memory.read m (a + BitVec.ofNat 16 k)) := by
  cases hscan : scanString m fuel a with
  | none => exact absurd hzero (scanString_none.mp hscan n hn)
  | some bytes =>
    obtain ⟨-, hbytes, hnonzero, hend⟩ := scanString_some hscan
    have hlen : bytes.length = n := by
      obtain hlt | heq | hgt := Nat.lt_trichotomy bytes.length n
      · exact absurd hend (hbefore _ hlt)
      · exact heq
      · exact absurd hzero (hnonzero n hgt)
    rw [hlen] at hbytes
    rw [hbytes]

/-- R248: 65536 bytes from any address are the whole of memory. -/
theorem scanString_all_none {m : Memory} {a : Word} : scanString m 65536 a = none ↔ ∀ b : Word, Memory.read m b ≠ 0 := by
  rw [scanString_none]
  refine ⟨fun h b => ?everywhere, fun h k _ => h _⟩
  have hb : a + BitVec.ofNat 16 (b - a).toNat = b := by
    rw [BitVec.ofNat_toNat, BitVec.setWidth_eq]; exact add_sub_cancel a b
  rw [← hb]
  exact h _ (b - a).isLt

end StringOutput

/-- Settles O59: the scan of the whole memory finds the first zero byte. -/
theorem stringOutputWritesUpToTheZero : Obligations.StringOutputWritesUpToTheZero := by
  intro mode spec s ea n hl ha hn hbefore hzero
  exact ⟨_, execStro_of_some hl ha (scanString_of_first_zero hn hbefore hzero), put_frame s mode spec ea _⟩

/-- Settles O60: STRO faults exactly when its scan of the whole memory does not end. -/
theorem stringOutputEndsIffSomeByteIsZero : Obligations.StringOutputEndsIffSomeByteIsZero := by
  intro mode spec s hl
  obtain ⟨ea, ha⟩ := addressOf_of_legalForString s spec hl
  rw [← scanString_all_none (a := ea), exec_stro]
  refine ⟨fun hfault => ?ends, execStro_of_none hl ha⟩
  cases hscan : scanString s.mem 65536 ea with
  | none => rfl
  | some bytes => rw [execStro_of_some hl ha hscan] at hfault; cases hfault

/-! ### Input -/

section Input

variable {s : State} {mode : AddrMode} {spec ea : Word}

/-- R245: DECI on a number that the reader gives. -/
theorem execDeci_of_ok {val : Int} {rest : List Byte} (ha : s.addressOf mode spec = some ea)
    (hread : readDecimal s.cfg.continueOnInputExhaustion s.input = (.ok val, rest)) :
    execDeci mode spec s = .next
      { s.enterS mode spec ea with
        input := rest, mem := Memory.writeWord s.mem ea (BitVec.ofInt 16 val),
        flags := { s.flags.withNZ (BitVec.ofInt 16 val) with v := decide (val > 32767) || decide (val < -32768) } } := by
  rw [execDeci, withAddress_of_addressOf ha]
  simp only [State.enterS_eq, State.advance_cfg, State.setScratch_cfg, State.advance_input, State.setScratch_input, hread]
  rfl

/-- R244, R277: DECI on an error of the reader. -/
theorem execDeci_of_error {k : ErrKind} {rest : List Byte} (ha : s.addressOf mode spec = some ea)
    (hread : readDecimal s.cfg.continueOnInputExhaustion s.input = (.error k, rest)) :
    execDeci mode spec s = .next (((s.enterS mode spec ea).setInput rest).raise k) := by
  rw [execDeci, withAddress_of_addressOf ha]
  simp only [State.enterS_eq, State.advance_cfg, State.setScratch_cfg, State.advance_input, State.setScratch_input, hread]

/-- R250: CHARI with a byte of input left. -/
theorem execChari_of_cons {b : Byte} {rest : List Byte} (ha : s.addressOf mode spec = some ea)
    (hinput : s.input = b :: rest) :
    execChari mode spec s = .next (((s.enterS mode spec ea).setInput rest).storeByte ea b) := by
  rw [execChari, withAddress_of_addressOf ha]
  simp only [State.enterS_eq, State.advance_cfg, State.setScratch_cfg, State.advance_input, State.setScratch_input, hinput]
  rfl

/-- R251: CHARI on an exhausted stream, configured to go on. -/
theorem execChari_of_nil_goOn (ha : s.addressOf mode spec = some ea) (hinput : s.input = [])
    (hcont : s.cfg.continueOnInputExhaustion = true) :
    execChari mode spec s = .next ((s.enterS mode spec ea).storeByte ea 0) := by
  rw [execChari, withAddress_of_addressOf ha]
  simp only [State.enterS_eq, State.advance_cfg, State.setScratch_cfg, State.advance_input, State.setScratch_input, hinput,
    hcont]
  rfl

/-- R251, R274: CHARI on an exhausted stream otherwise. -/
theorem execChari_of_nil (ha : s.addressOf mode spec = some ea) (hinput : s.input = [])
    (hcont : s.cfg.continueOnInputExhaustion = false) :
    execChari mode spec s = .next ((s.enterS mode spec ea).raise .inputExhausted) := by
  rw [execChari, withAddress_of_addressOf ha]
  simp only [State.enterS_eq, State.advance_cfg, State.setScratch_cfg, State.advance_input, State.setScratch_input, hinput,
    hcont]

end Input

/-- Settles O53: the word written, the flags of the truncated word and the bytes left. -/
theorem decimalInputStoresTheNumber : Obligations.DecimalInputStoresTheNumber := by
  intro mode spec s ea val rest ha hread
  obtain ⟨hpc, hscratch, hregs, -, -, ⟨-, houtput⟩, hrun, hrest⟩ := enterS_frame s mode spec ea
  refine ⟨_, execDeci_of_ok ha hread, Memory.readWord_writeWord .., SameMemoryBut.of_writeWord rfl, rfl, rfl, ?overflow,
    rfl, rfl, houtput, hpc, hscratch, hregs, hrun, hrest⟩
  case overflow => rw [Bool.or_eq_true, decide_eq_true_iff, decide_eq_true_iff]; exact or_comm

/-- Settles O54: the two ways to an input error after phase 3. -/
theorem inputErrorsWriteNothing : Obligations.InputErrorsWriteNothing :=
  ⟨fun _ _ _ _ _ _ ha hread => execDeci_of_error ha hread, fun _ _ _ _ ha hinput hcont => execChari_of_nil ha hinput hcont⟩

/-- Settles O55: the byte is the first of the input, or zero where the stream is exhausted. -/
theorem characterInputStoresOneByte : Obligations.CharacterInputStoresOneByte := by
  intro mode spec s ea b rest ha hbyte
  obtain ⟨hpc, hscratch, hregs, hflags, -, ⟨hinput, houtput⟩, hrun, hrest⟩ := enterS_frame s mode spec ea
  obtain hcons | ⟨hnil, rfl, rfl, hcont⟩ := hbyte
  · exact ⟨_, execChari_of_cons ha hcons, Memory.read_write_self .., SameMemoryBut.of_write rfl, rfl, houtput, hpc,
      hscratch, hregs, hflags, hrun, hrest⟩
  · exact ⟨_, execChari_of_nil_goOn ha hnil hcont, Memory.read_write_self s.mem ea 0, SameMemoryBut.of_write (v := 0) rfl,
      hinput.trans hnil, houtput, hpc, hscratch, hregs, hflags, hrun, hrest⟩

end Sys2Proof.Machine
end

section
/-! PROOFS about every instruction: which mode stops it (R69 to R71), what it may write (R10 to R16, R48, R240, R241) and how
it may stop the machine (R270). `Keeps` says once what an instruction leaves alone; it is kept by each named operation that
the instruction is allowed, and so by each instruction. -/

namespace Sys2Proof.Machine

/-! ### Illegal modes -/

/-- R71: a mode that the stores and the inputs accept has an address. -/
theorem addressOf_of_legalForAddress {mode : AddrMode} (s : State) (spec : Word) (h : mode.legalForAddress = true) :
    ∃ ea, s.addressOf mode spec = some ea := by
  cases ha : s.addressOf mode spec with
  | none => rw [addressOf_eq_none.mp ha] at h; cases h
  | some ea => exact ⟨ea, rfl⟩

/-- R132, R272: an instruction in an illegal mode raises DecodeError, with PC and the scratch as they were. -/
theorem exec_of_illegal {i : Instr} (s : State) (h : i.wellFormed = false) : exec i s = .next (s.raise .decodeError) := by
  cases i
  case nop mode _ =>
    rw [exec_nop, execNop, if_neg]
    exact Bool.eq_false_iff.mp h
  case stro => rw [exec_stro, execStro]; exact withAddress_of_illegal h
  case deci => rw [exec_deci, execDeci]; exact withAddress_of_illegal h
  case chari => rw [exec_chari, execChari]; exact withAddress_of_illegal h
  case str => rw [exec_str, execStr]; exact withAddress_of_illegal h
  case stbyter => rw [exec_stbyter, execStbyter]; exact withAddress_of_illegal h
  all_goals cases h

/-! ### What an instruction may write -/

/-- The errors an instruction of this form may raise (R270, R272 to R275). -/
def MayRaise (i : Instr) (k : ErrKind) : Prop :=
  (i = .rettr ∧ k = .unsupportedInstruction) ∨ (i.wellFormed = false ∧ k = .decodeError) ∨
  (i.base = .deci ∧ (k = .inputFormatError ∨ k = .inputExhausted)) ∨ (i.base = .chari ∧ k = .inputExhausted)

/-- The registers an instruction may write: the one its register field selects, and A by the two moves. -/
def MayWriteReg (i : Instr) (r : Reg) : Prop := traceReg i = some r ∨ (r = .a ∧ (i = .movspa ∨ i = .movflga))

/-- The flags `f` after the instruction `i` from `s`: those its row of R16's table does not name are as before, and N and Z
are not both 1 unless they were. -/
structure KeepsFlags (i : Instr) (s : State) (f : Flags) : Prop where
  nz : writesNZ s.cfg i.base = false → f.n = s.flags.n ∧ f.z = s.flags.z
  v : writesV i.base = false → f.v = s.flags.v
  c : writesC i.base = false → f.c = s.flags.c
  notBoth : ¬(s.flags.n = true ∧ s.flags.z = true) → ¬(f.n = true ∧ f.z = true)

/-- What an instruction `i` that leads from `s` to `t` leaves alone, and what it keeps of what it writes. -/
structure Keeps (i : Instr) (s t : State) : Prop where
  cfg : t.cfg = s.cfg
  trace : t.trace = s.trace
  x : ¬MayWriteReg i .x → t.x = s.x
  a : ¬MayWriteReg i .a → t.a = s.a
  sp : i.base ∉ [.call, .retn, .addsp, .subsp] → t.sp = s.sp
  mem : i.base ∉ [.call, .str, .stbyter, .deci, .chari] → t.mem = s.mem
  canonical : Memory.wf s.mem = true → Memory.wf t.mem = true
  flags : KeepsFlags i s t.flags
  consumed : ∃ used, s.input = used ++ t.input
  written : ∃ bytes, t.output = s.output ++ bytes
  input : i.base ∉ [.deci, .chari] → t.input = s.input
  output : i.base ∉ [.deco, .stro, .charo] → t.output = s.output
  stops : (t.run = s.run ∧ t.err = s.err) ∨ (t.run = .halted ∧ (i = .stop ∧ t.err = s.err ∨ MayRaise i t.err))

/-! ### The flags, by the way they are written -/

namespace KeepsFlags

variable {i : Instr} {s : State} {f : Flags}

theorem refl (i : Instr) (s : State) : KeepsFlags i s s.flags where
  nz _ := ⟨rfl, rfl⟩
  v _ := rfl
  c _ := rfl
  notBoth := id

theorem setV (h : KeepsFlags i s f) (hw : writesV i.base = true) (v : Bool) : KeepsFlags i s { f with v := v } :=
  { h with v := fun hno => absurd (hw.symm.trans hno) (by decide) }

theorem setC (h : KeepsFlags i s f) (hw : writesC i.base = true) (c : Bool) : KeepsFlags i s { f with c := c } :=
  { h with c := fun hno => absurd (hw.symm.trans hno) (by decide) }

/-- N and Z are written together, from one word (R16). -/
theorem withNZ (h : KeepsFlags i s f) (hw : writesNZ s.cfg i.base = true) (w : Word) : KeepsFlags i s (f.withNZ w) :=
  { h with
    nz := fun hno => absurd (hw.symm.trans hno) (by decide)
    notBoth := fun _ => not_negative_and_zero w }

theorem withNZWhen (h : KeepsFlags i s f) {cond : Bool} (hw : writesNZ s.cfg i.base = cond) (w : Word) :
    KeepsFlags i s (f.withNZWhen cond w) := by
  cases cond
  case false => exact h
  case true => exact h.withNZ hw w

/-- All four flags, of a sum. -/
theorem of_add16 (hnz : writesNZ s.cfg i.base = true) (hv : writesV i.base = true) (hc : writesC i.base = true)
    (l r : Word) : KeepsFlags i s (add16 l r).flags :=
  (((refl i s).withNZ hnz (add16 l r).result).setV hv _).setC hc _

/-- All four flags, of a difference. -/
theorem of_sub16 (hnz : writesNZ s.cfg i.base = true) (hv : writesV i.base = true) (hc : writesC i.base = true)
    (l r : Word) : KeepsFlags i s (sub16 l r).flags :=
  of_add16 hnz hv hc l (neg16 r)

end KeepsFlags

/-! ### The named operations -/

namespace Keeps

variable {i : Instr} {s t : State}

theorem refl (i : Instr) (s : State) : Keeps i s s where
  cfg := rfl
  trace := rfl
  x _ := rfl
  a _ := rfl
  sp _ := rfl
  mem _ := rfl
  canonical := id
  flags := .refl i s
  consumed := ⟨[], rfl⟩
  written := ⟨[], (List.append_nil _).symm⟩
  input _ := rfl
  output _ := rfl
  stops := .inl ⟨rfl, rfl⟩

/-- PC is no part of what is kept: every instruction writes it. -/
theorem setPc (h : Keeps i s t) (v : Word) : Keeps i s (t.setPc v) := { h with }

/-- Phase 3 of format U writes PC alone (R133). -/
theorem enterU (h : Keeps i s t) : Keeps i s t.enterU := { h with }

/-- Phase 3 of format S writes PC and the scratch alone (R133). -/
theorem enterS (h : Keeps i s t) (mode : AddrMode) (spec operand : Word) : Keeps i s (t.enterS mode spec operand) :=
  { h with }

theorem setReg (h : Keeps i s t) {r : Reg} (hr : MayWriteReg i r) (v : Word) : Keeps i s (t.setReg r v) := by
  cases r
  case a => exact { h with a := fun hno => absurd hr hno }
  case x => exact { h with x := fun hno => absurd hr hno }

theorem setSp (h : Keeps i s t) (hi : i.base ∈ [.call, .retn, .addsp, .subsp]) (v : Word) : Keeps i s (t.setSp v) :=
  { h with sp := fun hno => absurd hi hno }

theorem setFlags (h : Keeps i s t) {f : Flags} (hf : KeepsFlags i s f) : Keeps i s (t.setFlags f) :=
  { h with flags := hf }

theorem storeByte (h : Keeps i s t) (hi : i.base ∈ [.call, .str, .stbyter, .deci, .chari]) (ea : Word) (v : Byte) :
    Keeps i s (t.storeByte ea v) :=
  { h with mem := fun hno => absurd hi hno, canonical := fun hs => Memory.wf_write ea v (h.canonical hs) }

theorem storeWord (h : Keeps i s t) (hi : i.base ∈ [.call, .str, .stbyter, .deci, .chari]) (ea v : Word) :
    Keeps i s (t.storeWord ea v) :=
  { h with mem := fun hno => absurd hi hno, canonical := fun hs => Memory.wf_writeWord ea v (h.canonical hs) }

theorem put (h : Keeps i s t) (hi : i.base ∈ [.deco, .stro, .charo]) (bytes : List Byte) : Keeps i s (t.put bytes) := by
  obtain ⟨before, hbefore⟩ := h.written
  have hwritten : (t.put bytes).output = s.output ++ (before ++ bytes) := by
    rw [State.put_output, hbefore, List.append_assoc]
  exact { h with written := ⟨_, hwritten⟩, output := fun hno => absurd hi hno }

theorem setInput (h : Keeps i s t) (hi : i.base ∈ [.deci, .chari]) {rest : List Byte}
    (hrest : ∃ used, t.input = used ++ rest) : Keeps i s (t.setInput rest) := by
  obtain ⟨before, hbefore⟩ := h.consumed
  obtain ⟨used, hused⟩ := hrest
  have hconsumed : s.input = (before ++ used) ++ (t.setInput rest).input := by
    rw [State.setInput_input, hbefore, hused, List.append_assoc]
  exact { h with consumed := ⟨_, hconsumed⟩, input := fun hno => absurd hi hno }

/-- RUN and ERR: by STOP alone, ERR as it was. -/
theorem halt (h : Keeps .stop s t) : Keeps .stop s t.halt :=
  { h with stops := .inr ⟨rfl, h.stops.elim (fun hsame => .inl ⟨rfl, hsame.2⟩) (·.2)⟩ }

theorem raise (h : Keeps i s t) {k : ErrKind} (hk : MayRaise i k) : Keeps i s (t.raise k) :=
  { h with stops := .inr ⟨rfl, .inr hk⟩ }

/-! ### The shapes of the instructions -/

/-- Phase 3 of a value-strategy instruction. -/
theorem enterValue (h : Keeps i s t) (mode : AddrMode) (spec : Word) : Keeps i s (t.enterValue mode spec) :=
  h.enterS mode spec _

theorem writeU {r : Reg} (hr : MayWriteReg i r) (v : Word) {f : Flags} (hf : KeepsFlags i s f) :
    Keeps i s (s.writeU r v f) :=
  ((refl i s).enterU.setReg hr v).setFlags hf

theorem writeS {r : Reg} (hr : MayWriteReg i r) (mode : AddrMode) (spec v : Word) {f : Flags} (hf : KeepsFlags i s f) :
    Keeps i s (s.writeS mode spec r v f) :=
  (((refl i s).enterValue mode spec).setReg hr v).setFlags hf

theorem writeSp (hi : i.base ∈ [.call, .retn, .addsp, .subsp]) (mode : AddrMode) (spec v : Word) {f : Flags}
    (hf : KeepsFlags i s f) : Keeps i s (s.writeSp mode spec v f) :=
  (((refl i s).enterValue mode spec).setSp hi v).setFlags hf

theorem branchWhen (i : Instr) (s : State) (cond : Bool) (mode : BranchMode) (spec : Word) :
    Keeps i s (s.branchWhen cond mode spec) := by
  rw [branchWhen_eq]
  exact ((refl i s).enterS (branchAddrMode mode) spec _).setPc _

end Keeps

/-! ### Each instruction -/

/-- The one next state of an instruction keeps what it keeps. -/
theorem Keeps.of_exec {i : Instr} {s t u : State} (h : exec i s = .next t) (hu : exec i s = .next u) (hk : Keeps i s u) :
    Keeps i s t := by
  rw [hu] at h
  cases h
  exact hk

section Streams

variable {s t : State} {mode : AddrMode} {spec : Word}

/-- DECI keeps what it keeps whether its reader gives a number or an error. -/
theorem deci_keeps (hw : mode.legalForAddress = true) (h : exec (.deci mode spec) s = .next t) :
    Keeps (.deci mode spec) s t := by
  obtain ⟨ea, ha⟩ := addressOf_of_legalForAddress s spec hw
  obtain ⟨result, rest, hread⟩ :
      ∃ result rest, readDecimal s.cfg.continueOnInputExhaustion s.input = (result, rest) := ⟨_, _, rfl⟩
  obtain ⟨used, hused⟩ := readDecimal_suffix s.cfg.continueOnInputExhaustion s.input
  rw [hread] at hused
  have hbytes : Keeps (.deci mode spec) s ((s.enterS mode spec ea).setInput rest) :=
    ((Keeps.refl _ s).enterS mode spec ea).setInput (.head _) ⟨used, hused⟩
  cases result with
  | error k =>
    exact .of_exec h (execDeci_of_error ha hread) (hbytes.raise (.inr (.inr (.inl ⟨rfl, readDecimal_error hread⟩))))
  | ok val =>
    have hflags := ((KeepsFlags.refl (.deci mode spec) s).withNZ rfl (BitVec.ofInt 16 val)).setV rfl
      (decide (val > 32767) || decide (val < -32768))
    exact .of_exec h (execDeci_of_ok ha hread) ((hbytes.storeWord (by simp [Instr.base]) ea _).setFlags hflags)

/-- STRO keeps what it keeps where it ends. -/
theorem stro_keeps (hw : mode.legalForString = true) (h : exec (.stro mode spec) s = .next t) :
    Keeps (.stro mode spec) s t := by
  obtain ⟨ea, ha⟩ := addressOf_of_legalForString s spec hw
  cases hscan : scanString s.mem 65536 ea with
  | none => exact absurd (h.symm.trans (execStro_of_none hw ha hscan)) nofun
  | some bytes =>
    exact .of_exec h (execStro_of_some hw ha hscan)
      (((Keeps.refl _ s).enterS mode spec ea).put (by simp [Instr.base]) bytes)

/-- CHARI keeps what it keeps with a byte of input, and on an exhausted stream in either configuration. -/
theorem chari_keeps (hw : mode.legalForAddress = true) (h : exec (.chari mode spec) s = .next t) :
    Keeps (.chari mode spec) s t := by
  obtain ⟨ea, ha⟩ := addressOf_of_legalForAddress s spec hw
  have hphase3 : Keeps (.chari mode spec) s (s.enterS mode spec ea) := (Keeps.refl _ s).enterS mode spec ea
  cases hinput : s.input with
  | cons b rest =>
    exact .of_exec h (execChari_of_cons ha hinput)
      ((hphase3.setInput (by simp [Instr.base]) ⟨[b], hinput⟩).storeByte (by simp [Instr.base]) ea b)
  | nil =>
    cases hcont : s.cfg.continueOnInputExhaustion with
    | true => exact .of_exec h (execChari_of_nil_goOn ha hinput hcont) (hphase3.storeByte (by simp [Instr.base]) ea 0)
    | false => exact .of_exec h (execChari_of_nil ha hinput hcont) (hphase3.raise (.inr (.inr (.inr ⟨rfl, rfl⟩))))

end Streams

/-- Every instruction keeps what its form does not let it write. -/
theorem exec_keeps {i : Instr} {s t : State} (h : exec i s = .next t) : Keeps i s t := by
  cases hw : i.wellFormed with
  | false => exact .of_exec h (exec_of_illegal s hw) ((Keeps.refl i s).raise (.inr (.inl ⟨hw, rfl⟩)))
  | true =>
    cases i with
    | stop => exact .of_exec h rfl (Keeps.refl _ s).enterU.halt
    | rettr => exact .of_exec h rfl ((Keeps.refl _ s).enterU.raise (.inl ⟨rfl, rfl⟩))
    | movspa => exact .of_exec h (execMovspa_eq s) (.writeU (.inr ⟨rfl, .inl rfl⟩) _ (.refl _ s))
    | movflga =>
      exact .of_exec h (execMovflga_eq s) { Keeps.writeU (s := s) (.inr ⟨rfl, .inr rfl⟩) _ (.refl _ s) with }
    | br mode spec => exact .of_exec h rfl (.branchWhen ..)
    | brle mode spec => exact .of_exec h rfl (.branchWhen ..)
    | brlt mode spec => exact .of_exec h rfl (.branchWhen ..)
    | breq mode spec => exact .of_exec h rfl (.branchWhen ..)
    | brne mode spec => exact .of_exec h rfl (.branchWhen ..)
    | brge mode spec => exact .of_exec h rfl (.branchWhen ..)
    | brgt mode spec => exact .of_exec h rfl (.branchWhen ..)
    | brv mode spec => exact .of_exec h rfl (.branchWhen ..)
    | brc mode spec => exact .of_exec h rfl (.branchWhen ..)
    | call mode spec =>
      have hphase3 := (Keeps.refl (.call mode spec) s).enterValue (branchAddrMode mode) spec
      exact .of_exec h rfl
        (((hphase3.setSp (by simp [Instr.base]) _).storeWord (by simp [Instr.base]) _ _).setPc _)
    | notr r => exact .of_exec h (execNotr_eq r s) (.writeU (.inl rfl) _ ((KeepsFlags.refl _ s).withNZ rfl _))
    | negr r => exact .of_exec h (execNegr_eq r s) (.writeU (.inl rfl) _ (((KeepsFlags.refl _ s).withNZ rfl _).setV rfl _))
    | aslr r =>
      exact .of_exec h (execAslr_eq r s)
        (.writeU (.inl rfl) _ ((((KeepsFlags.refl _ s).setV rfl _).setC rfl _).withNZWhen rfl _))
    | asrr r =>
      exact .of_exec h (execAsrr_eq r s) (.writeU (.inl rfl) _ (((KeepsFlags.refl _ s).setC rfl _).withNZWhen rfl _))
    | rolr r => exact .of_exec h (execRolr_eq r s) (.writeU (.inl rfl) _ ((KeepsFlags.refl _ s).setC rfl _))
    | rorr r => exact .of_exec h (execRorr_eq r s) (.writeU (.inl rfl) _ ((KeepsFlags.refl _ s).setC rfl _))
    | nopn nn => exact .of_exec h rfl (Keeps.refl _ s).enterU
    | nop mode spec => exact .of_exec h (if_pos hw) ((Keeps.refl _ s).enterValue mode spec)
    | deci mode spec => exact deci_keeps hw h
    | deco mode spec => exact .of_exec h rfl (((Keeps.refl _ s).enterValue mode spec).put (by simp [Instr.base]) _)
    | stro mode spec => exact stro_keeps hw h
    | chari mode spec => exact chari_keeps hw h
    | charo mode spec =>
      exact .of_exec h rfl (((Keeps.refl _ s).enterValue mode spec).put (by simp [Instr.base]) _)
    | retn count =>
      exact .of_exec h (execRetn_eq count s)
        { Keeps.refl (.retn count) s with sp := fun hno => absurd (by simp [Instr.base]) hno }
    | addsp mode spec =>
      exact .of_exec h (execAddsp_eq s mode spec) (.writeSp (by simp [Instr.base]) mode spec _ (.of_add16 rfl rfl rfl _ _))
    | subsp mode spec =>
      exact .of_exec h (execSubsp_eq s mode spec) (.writeSp (by simp [Instr.base]) mode spec _ (.of_sub16 rfl rfl rfl _ _))
    | addr r mode spec =>
      exact .of_exec h (execAddr_eq s mode spec r) (.writeS (.inl rfl) mode spec _ (.of_add16 rfl rfl rfl _ _))
    | subr r mode spec =>
      exact .of_exec h (execSubr_eq s mode spec r) (.writeS (.inl rfl) mode spec _ (.of_sub16 rfl rfl rfl _ _))
    | andr r mode spec =>
      exact .of_exec h (execAndr_eq s mode spec r) (.writeS (.inl rfl) mode spec _ ((KeepsFlags.refl _ s).withNZ rfl _))
    | orr r mode spec =>
      exact .of_exec h (execOrr_eq s mode spec r) (.writeS (.inl rfl) mode spec _ ((KeepsFlags.refl _ s).withNZ rfl _))
    | cpr r mode spec =>
      exact .of_exec h (execCpr_eq s mode spec r)
        (((Keeps.refl _ s).enterValue mode spec).setFlags (.of_sub16 rfl rfl rfl _ _))
    | ldr r mode spec =>
      exact .of_exec h (execLdr_eq s mode spec r) (.writeS (.inl rfl) mode spec _ ((KeepsFlags.refl _ s).withNZWhen rfl _))
    | ldbyter r mode spec =>
      exact .of_exec h (execLdbyter_eq s mode spec r)
        (.writeS (.inl rfl) mode spec _ ((KeepsFlags.refl _ s).withNZWhen rfl _))
    | str r mode spec =>
      obtain ⟨ea, ha⟩ := addressOf_of_legalForAddress s spec hw
      exact .of_exec h (execStr_eq r ha) (((Keeps.refl _ s).enterS mode spec ea).storeWord (by simp [Instr.base]) ea _)
    | stbyter r mode spec =>
      obtain ⟨ea, ha⟩ := addressOf_of_legalForAddress s spec hw
      exact .of_exec h (execStbyter_eq r ha) (((Keeps.refl _ s).enterS mode spec ea).storeByte (by simp [Instr.base]) ea _)

end Sys2Proof.Machine
end

section
/-! PROOFS about who writes what and of the cycle (42_cycle.md, 60_exceptions.md): the consequences of `exec_keeps` for one
instruction, and the step as fetch, decode, effect and trace. -/

namespace Sys2Proof.Machine

/-! ### Who writes what -/

/-- Settles O31: what an instruction keeps of the streams. -/
theorem onlyIoInstructionsUseTheStreams : Obligations.OnlyIoInstructionsUseTheStreams := by
  intro i s t h
  have keeps := exec_keeps h
  exact ⟨keeps.consumed, keeps.written, keeps.input, keeps.output⟩

/-- Settles O32: what an instruction keeps of the flags. -/
theorem flagsNotNamedAreUntouched : Obligations.FlagsNotNamedAreUntouched := by
  intro i s t h
  obtain ⟨hnz, hv, hc, -⟩ := (exec_keeps h).flags
  exact ⟨hnz, hv, hc⟩

/-- Settles O33: what an instruction keeps of the registers and of memory. -/
theorem registersAndMemoryHaveTheirWriters : Obligations.RegistersAndMemoryHaveTheirWriters := by
  intro i s t h
  have keeps := exec_keeps h
  refine ⟨fun hfield => keeps.x ?x, fun hfield hmovspa hmovflga => keeps.a ?a, keeps.sp, fun hi => .of_mem (keeps.mem hi)⟩
  case x =>
    rintro (hx | ⟨hx, -⟩)
    · exact hfield hx
    · cases hx
  case a =>
    rintro (ha | ⟨-, hmove | hmove⟩)
    · exact hfield ha
    · exact hmovspa hmove
    · exact hmovflga hmove

/-- Settles O34: the stops `Keeps` allows, one by one. -/
theorem haltsOnlyForTheListedConditions : Obligations.HaltsOnlyForTheListedConditions := by
  intro i s t hrun h
  obtain ⟨hsame, herr⟩ | ⟨hhalted, ⟨hi, herr⟩ | ⟨hi, herr⟩ | ⟨hi, herr⟩ | ⟨hi, herr⟩ | ⟨hi, herr⟩⟩ := (exec_keeps h).stops
  · exact .inl ⟨hsame.trans hrun, herr⟩
  · exact .inr (.inl ⟨hhalted, hi, herr⟩)
  · exact .inr (.inr (.inl ⟨hhalted, hi, herr⟩))
  · exact .inr (.inr (.inr (.inl ⟨hhalted, hi, herr⟩)))
  · exact .inr (.inr (.inr (.inr (.inl ⟨hhalted, hi, herr⟩))))
  · exact .inr (.inr (.inr (.inr (.inr ⟨hhalted, hi, herr⟩))))

/-! ### The step, by what it meets -/

section Step

variable {s : State}

/-- R17, R282: no step is taken in Halted; the model answers with the same state (log 7). -/
theorem step_of_halted (h : s.run = .halted) : step s = .next s := by
  simp only [step, cycle, h]

/-- R73: an opcode without a base operation. -/
theorem step_of_reject {e : DecodeReject} (hrun : s.run = .running) (hd : decode s.cfg (fetchBytes s) = .error e) :
    step s = .next (s.fetch.raise .internalError) := by
  simp only [step, cycle, hrun, hd]

/-- R132 to R135: the decoded instruction's effect after the fetch, and then the trace. -/
theorem step_of_decode {i : Instr} {rest : List Byte} (hrun : s.run = .running)
    (hd : decode s.cfg (fetchBytes s) = .ok (i, rest)) : step s = traceOutcome i (exec i s.fetch) := by
  simp only [step, cycle, hrun, hd]

/-- R73: under a map with all 256 entries the fetched bytes decode. -/
theorem decode_of_total (h : s.cfg.opcodeMap.length = 256) :
    ∃ i rest, decode s.cfg (fetchBytes s) = .ok (i, rest) := by
  have hin : (Memory.read s.mem s.pc).toNat < s.cfg.opcodeMap.length := by rw [h]; exact (Memory.read s.mem s.pc).isLt
  have hop := List.getElem?_eq_getElem hin
  cases hb : s.cfg.opcodeMap[(Memory.read s.mem s.pc).toNat].requiresSpec with
  | false => exact ⟨_, _, decode_formatU hop hb _⟩
  | true => exact ⟨_, _, decode_formatS hop hb _ _ []⟩

end Step

/-! ### What a step executes -/

/-- Settles O22: by R18's part of the invariant only a halted machine has an error. -/
theorem haltedIsAbsorbing : Obligations.HaltedIsAbsorbing := by
  refine ⟨fun s => step_of_halted, fun s hinv herr => step_of_halted ?_⟩
  cases hrun : s.run with
  | halted => rfl
  | running => exact absurd (hinv.noErrorWhileRunning hrun) herr

/-- R135: a line is emitted when tracing is enabled and the instruction raised no error (D23, log 26). -/
theorem traced_eq_ite (t : State) (i : Instr) :
    t.traced i =
      if t.cfg.traceEnabled = true ∧ (t.run = .running ∨ t.err = .none) then t.emitLine (t.traceLine i) else t := by
  have hcond : (t.cfg.traceEnabled && t.completed) = true ↔
      t.cfg.traceEnabled = true ∧ (t.run = .running ∨ t.err = .none) := by
    rw [State.completed, Bool.and_eq_true, Bool.or_eq_true, decide_eq_true_iff, decide_eq_true_iff]
  rw [State.traced]
  exact if_congr hcond rfl rfl

/-- Settles O21: the trace's condition and line are those of `traced_eq_ite`. -/
theorem stepRunsTheDecodedInstruction : Obligations.StepRunsTheDecodedInstruction := by
  intro s i rest hrun hd _
  have hstep : step s = traceOutcome i (exec i s.fetch) := step_of_decode hrun hd
  refine ⟨fun t ht => ?next, fun f hf => ?fault⟩
  case next =>
    change exec i s.fetch = .next t at ht
    rw [hstep, ht]
    exact congrArg _ (traced_eq_ite t i)
  case fault =>
    change exec i s.fetch = .fault f at hf
    rw [hstep, hf]
    rfl

/-- Settles O23: an error is traced by no line. -/
theorem illegalModesRaiseDecodeError : Obligations.IllegalModesRaiseDecodeError := by
  refine ⟨fun i s hw => exec_of_illegal s hw, fun s i rest hrun hd hw => ?step⟩
  have hstep : step s = traceOutcome i (exec i s.fetch) := step_of_decode hrun hd
  have hsilent : (s.fetch.raise .decodeError).traced i = s.fetch.raise .decodeError := by
    rw [traced_eq_ite, if_neg]
    rintro ⟨-, hran | hnone⟩
    · cases hran
    · cases hnone
  rw [hstep, exec_of_illegal _ hw, traceOutcome, hsilent]
  rfl

/-- An instruction completes, but for a string output in a memory without a zero byte (R248). -/
theorem exec_completes (i : Instr) (s : State) :
    (∃ t, exec i s = .next t) ∨
    (exec i s = .fault .stringOutputNeverEnds ∧ (∀ a : Word, Memory.read s.mem a ≠ 0) ∧
      ∃ mode spec, i = .stro mode spec) := by
  cases hw : i.wellFormed with
  | false => exact .inl ⟨_, exec_of_illegal s hw⟩
  | true =>
    cases i
    case stro mode spec =>
      obtain ⟨ea, ha⟩ := addressOf_of_legalForString s spec hw
      cases hscan : scanString s.mem 65536 ea with
      | none => exact .inr ⟨execStro_of_none hw ha hscan, scanString_all_none.mp hscan, mode, spec, rfl⟩
      | some bytes => exact .inl ⟨_, execStro_of_some hw ha hscan⟩
    case deci mode spec =>
      obtain ⟨ea, ha⟩ := addressOf_of_legalForAddress s spec hw
      cases hread : (readDecimal s.cfg.continueOnInputExhaustion s.input).1 with
      | error k => exact .inl ⟨_, execDeci_of_error ha (Prod.ext hread rfl)⟩
      | ok val => exact .inl ⟨_, execDeci_of_ok ha (Prod.ext hread rfl)⟩
    case chari mode spec =>
      obtain ⟨ea, ha⟩ := addressOf_of_legalForAddress s spec hw
      cases hinput : s.input with
      | cons b rest => exact .inl ⟨_, execChari_of_cons ha hinput⟩
      | nil =>
        cases hcont : s.cfg.continueOnInputExhaustion with
        | true => exact .inl ⟨_, execChari_of_nil_goOn ha hinput hcont⟩
        | false => exact .inl ⟨_, execChari_of_nil ha hinput hcont⟩
    case str r mode spec =>
      obtain ⟨ea, ha⟩ := addressOf_of_legalForAddress s spec hw
      exact .inl ⟨_, execStr_eq r ha⟩
    case stbyter r mode spec =>
      obtain ⟨ea, ha⟩ := addressOf_of_legalForAddress s spec hw
      exact .inl ⟨_, execStbyter_eq r ha⟩
    case nop mode spec => exact .inl ⟨_, if_pos hw⟩
    all_goals exact .inl ⟨_, rfl⟩

/-- Settles O26: an instruction completes but for the endless string, and so do the other ways of a step. -/
theorem stepCompletesButForEndlessString : Obligations.StepCompletesButForEndlessString := by
  intro s
  cases hrun : s.run with
  | halted => exact .inl ⟨s, step_of_halted hrun⟩
  | running =>
    cases hd : decode s.cfg (fetchBytes s) with
    | error e => exact .inl ⟨_, step_of_reject hrun hd⟩
    | ok decoded =>
      obtain ⟨i, rest⟩ := decoded
      have hstep := step_of_decode hrun hd
      obtain ⟨t, ht⟩ | ⟨hfault, hmem, mode, spec, rfl⟩ := exec_completes i s.fetch
      · exact .inl ⟨t.traced i, by rw [hstep, ht, traceOutcome]⟩
      · exact .inr ⟨by rw [hstep, hfault, traceOutcome], rfl, hmem, mode, spec, rest, rfl⟩

/-! ### What every step keeps -/

/-- Settles O27: no instruction writes the configuration, and neither does the fetch or the trace. -/
theorem stepKeepsTheConfiguration : Obligations.StepKeepsTheConfiguration := by
  intro s t h
  obtain ⟨-, rfl⟩ | ⟨-, -, rfl⟩ | ⟨i, -, u, -, -, hexec, rfl⟩ := step_next h
  · rfl
  · rfl
  · obtain ⟨line, htraced⟩ := traced_eq u i
    rw [htraced]
    exact (exec_keeps hexec).cfg

/-- Settles O24: under a total map every opcode decodes, and no instruction raises InternalError. -/
theorem internalErrorIsNeverRaised : Obligations.InternalErrorIsNeverRaised := by
  intro s t hmap herr h
  refine ⟨by rw [stepKeepsTheConfiguration s t h, hmap], ?_⟩
  obtain ⟨-, rfl⟩ | ⟨-, ⟨e, hreject⟩, -⟩ | ⟨i, -, u, -, -, hexec, rfl⟩ := step_next h
  · exact herr
  · obtain ⟨i, rest, hd⟩ := decode_of_total hmap
    cases hreject.symm.trans hd
  · obtain ⟨line, htraced⟩ := traced_eq u i
    rw [htraced]
    change u.err ≠ .internalError
    obtain ⟨-, hsame⟩ | ⟨-, ⟨-, hsame⟩ | hraised⟩ := (exec_keeps hexec).stops
    · rwa [hsame]
    · rwa [hsame]
    · obtain ⟨-, hk⟩ | ⟨-, hk⟩ | ⟨-, hk | hk⟩ | ⟨-, hk⟩ := hraised <;> rw [hk] <;> decide

/-- What an instruction keeps makes up the invariant: an instruction that runs on has raised nothing. -/
theorem Keeps.inv {i : Instr} {s t : State} (h : Keeps i s t) (hs : s.Inv) : t.Inv where
  canonicalMemory := h.canonical hs.canonicalMemory
  noErrorWhileRunning hrun := by
    obtain ⟨hran, herr⟩ | ⟨hhalted, -⟩ := h.stops
    · exact herr.trans (hs.noErrorWhileRunning (hran.symm.trans hrun))
    · cases hhalted.symm.trans hrun
  notNegativeZero := h.flags.notBoth hs.notNegativeZero

/-- Settles O25: the fetch, the error of an unknown opcode and the trace touch nothing the invariant speaks of but RUN. -/
theorem stepKeepsTheInvariant : Obligations.StepKeepsTheInvariant := by
  intro s t hs h
  obtain ⟨-, rfl⟩ | ⟨-, -, rfl⟩ | ⟨i, -, u, -, -, hexec, rfl⟩ := step_next h
  · exact hs
  · exact ⟨hs.canonicalMemory, nofun, hs.notNegativeZero⟩
  · have hfetched : s.fetch.Inv := ⟨hs.canonicalMemory, hs.noErrorWhileRunning, hs.notNegativeZero⟩
    obtain ⟨hmem, herr, hflags⟩ := (exec_keeps hexec).inv hfetched
    obtain ⟨line, htraced⟩ := traced_eq u i
    rw [htraced]
    exact ⟨hmem, herr, hflags⟩

end Sys2Proof.Machine
end

section
/-! PROOFS of non-interference: IR and the scratch carry nothing over (R15, R20), tracing changes nothing else (R7, R288) and
Out is never read (R241). All three compare two runs from states that agree in what an instruction can read; `Alike` is that
agreement, each named operation keeps it, and so does each instruction. -/

namespace Sys2Proof.Machine

/-! ### Outcomes in a relation -/

/-- Two outcomes of one kind, next states in the relation `R`. -/
def Both (R : State → State → Prop) : Host.Outcome State Fault Refusal → Host.Outcome State Fault Refusal → Prop
  | .next s, .next t => R s t
  | .fault f, .fault g => f = g
  | .refused p, .refused q => p = q
  | _, _ => False

theorem Both.of_eq {R : State → State → Prop} {o p : Host.Outcome State Fault Refusal} {s t : State} (ho : o = .next s)
    (hp : p = .next t) (h : R s t) : Both R o p := by
  rw [ho, hp]
  exact h

/-- Outcomes that agree under `f` are equal once passed through it. -/
theorem Both.mapNext_eq {f : State → State} {o p : Host.Outcome State Fault Refusal} (h : Both (fun s t => f s = f t) o p) :
    mapNext f o = mapNext f p := by
  cases o <;> cases p
  case next.next => exact congrArg Host.Outcome.next h
  case fault.fault => exact congrArg Host.Outcome.fault h
  case refused.refused => exact congrArg Host.Outcome.refused h
  all_goals exact h.elim

/-- Outcomes of which the second is the first passed through `f`. -/
theorem Both.eq_mapNext {f : State → State} {o p : Host.Outcome State Fault Refusal} (h : Both (fun s t => t = f s) o p) :
    p = mapNext f o := by
  cases o <;> cases p
  case next.next => exact congrArg Host.Outcome.next h
  case fault.fault => exact (congrArg Host.Outcome.fault h).symm
  case refused.refused => exact (congrArg Host.Outcome.refused h).symm
  all_goals exact h.elim

/-! ### States that agree in what an instruction can read -/

/-- `t` is `s` in all that an instruction can read or write, with `before` in front of the output. The trace and whether it
is enabled may differ, IR and the scratch too unless `scratch` holds. -/
structure Alike (before : List Byte) (scratch : Prop) (s t : State) : Prop where
  a : t.a = s.a
  x : t.x = s.x
  pc : t.pc = s.pc
  sp : t.sp = s.sp
  flags : t.flags = s.flags
  run : t.run = s.run
  err : t.err = s.err
  mem : t.mem = s.mem
  input : t.input = s.input
  output : t.output = before ++ s.output
  cfg : { t.cfg with traceEnabled := false } = { s.cfg with traceEnabled := false }
  freeIndex : t.freeIndex = s.freeIndex
  ir : scratch → t.ir = s.ir
  sameScratch : scratch → SameScratch s t

namespace Alike

variable {before : List Byte} {scratch : Prop} {s t : State}

/-! #### What an instruction reads -/

theorem reg (h : Alike before scratch s t) (r : Reg) : t.reg r = s.reg r := by
  cases r
  case a => exact h.a
  case x => exact h.x

theorem addressOf (h : Alike before scratch s t) (mode : AddrMode) (spec : Word) :
    t.addressOf mode spec = s.addressOf mode spec := by
  rw [State.addressOf, State.addressOf, h.sp, h.x, h.mem]

theorem valueOf (h : Alike before scratch s t) (mode : AddrMode) (spec : Word) :
    t.valueOf mode spec = s.valueOf mode spec := by
  rw [State.valueOf, State.valueOf, h.sp, h.x, h.mem]

theorem shiftSetsNZ (h : Alike before scratch s t) : t.cfg.shiftSetsNZ = s.cfg.shiftSetsNZ :=
  (congrArg Config.shiftSetsNZ h.cfg :)

theorem loadSetsNZ (h : Alike before scratch s t) : t.cfg.loadSetsNZ = s.cfg.loadSetsNZ :=
  (congrArg Config.loadSetsNZ h.cfg :)

theorem retSpDirection (h : Alike before scratch s t) : t.cfg.retSpDirection = s.cfg.retSpDirection :=
  (congrArg Config.retSpDirection h.cfg :)

theorem continueOnInputExhaustion (h : Alike before scratch s t) :
    t.cfg.continueOnInputExhaustion = s.cfg.continueOnInputExhaustion :=
  (congrArg Config.continueOnInputExhaustion h.cfg :)

theorem cfgMovflgaUpper (h : Alike before scratch s t) : t.cfg.movflgaUpper = s.cfg.movflgaUpper :=
  (congrArg Config.movflgaUpper h.cfg :)

theorem movflgaUpper (h : Alike before scratch s t) : t.movflgaUpper = s.movflgaUpper := by
  rw [State.movflgaUpper, State.movflgaUpper, h.cfgMovflgaUpper, h.a, h.freeIndex]

/-! #### The named operations -/

theorem enterU (h : Alike before scratch s t) : Alike before scratch s.enterU t.enterU :=
  { h with pc := congrArg (· + 1) h.pc }

/-- Phase 3 of format S writes the whole scratch, from what both share. -/
theorem enterS (h : Alike before scratch s t) (mode : AddrMode) (spec operand : Word) :
    Alike before scratch (s.enterS mode spec operand) (t.enterS mode spec operand) :=
  { h with pc := congrArg (· + 3) h.pc, sameScratch := fun _ => ⟨rfl, rfl, rfl⟩ }

theorem enterValue (h : Alike before scratch s t) (mode : AddrMode) (spec : Word) :
    Alike before scratch (s.enterValue mode spec) (t.enterValue mode spec) := by
  rw [State.enterValue, State.enterValue, h.valueOf]
  exact h.enterS ..

theorem setPc (h : Alike before scratch s t) (v : Word) : Alike before scratch (s.setPc v) (t.setPc v) :=
  { h with pc := rfl }

theorem setSp (h : Alike before scratch s t) (v : Word) : Alike before scratch (s.setSp v) (t.setSp v) :=
  { h with sp := rfl }

theorem setReg (h : Alike before scratch s t) (r : Reg) (v : Word) :
    Alike before scratch (s.setReg r v) (t.setReg r v) := by
  cases r
  case a => exact { h with a := rfl }
  case x => exact { h with x := rfl }

theorem setFlags (h : Alike before scratch s t) (f : Flags) : Alike before scratch (s.setFlags f) (t.setFlags f) :=
  { h with flags := rfl }

theorem storeByte (h : Alike before scratch s t) (ea : Word) (v : Byte) :
    Alike before scratch (s.storeByte ea v) (t.storeByte ea v) :=
  { h with mem := congrArg (Memory.write · ea v) h.mem }

theorem storeWord (h : Alike before scratch s t) (ea v : Word) :
    Alike before scratch (s.storeWord ea v) (t.storeWord ea v) :=
  { h with mem := congrArg (Memory.writeWord · ea v) h.mem }

theorem setInput (h : Alike before scratch s t) (rest : List Byte) :
    Alike before scratch (s.setInput rest) (t.setInput rest) :=
  { h with input := rfl }

/-- What is written stands after what was there (R241). -/
theorem put (h : Alike before scratch s t) (bytes : List Byte) : Alike before scratch (s.put bytes) (t.put bytes) :=
  { h with output := by rw [State.put_output, State.put_output, h.output, List.append_assoc] }

theorem halt (h : Alike before scratch s t) : Alike before scratch s.halt t.halt :=
  { h with run := rfl }

theorem raise (h : Alike before scratch s t) (k : ErrKind) : Alike before scratch (s.raise k) (t.raise k) :=
  { h with run := rfl, err := rfl }

/-- The fetch loads the same byte into IR (R131). -/
theorem fetch (h : Alike before scratch s t) : Alike before scratch s.fetch t.fetch :=
  { h with ir := fun _ => by rw [State.fetch, State.fetch, h.mem, h.pc]; rfl }

/-! #### The shapes of the instructions -/

theorem writeU (h : Alike before scratch s t) (r : Reg) (v : Word) (f : Flags) :
    Alike before scratch (s.writeU r v f) (t.writeU r v f) :=
  (h.enterU.setReg r v).setFlags f

theorem writeS (h : Alike before scratch s t) (mode : AddrMode) (spec : Word) (r : Reg) (v : Word) (f : Flags) :
    Alike before scratch (s.writeS mode spec r v f) (t.writeS mode spec r v f) :=
  ((h.enterValue mode spec).setReg r v).setFlags f

theorem writeSp (h : Alike before scratch s t) (mode : AddrMode) (spec v : Word) (f : Flags) :
    Alike before scratch (s.writeSp mode spec v f) (t.writeSp mode spec v f) :=
  ((h.enterValue mode spec).setSp v).setFlags f

theorem branchWhen (h : Alike before scratch s t) (cond : Bool) (mode : BranchMode) (spec : Word) :
    Alike before scratch (s.branchWhen cond mode spec) (t.branchWhen cond mode spec) := by
  rw [branchWhen_eq, branchWhen_eq, h.valueOf, h.pc]
  exact (h.enterS (branchAddrMode mode) spec _).setPc _

/-- A branch, by its condition on the flags. -/
theorem branchOn (h : Alike before scratch s t) (cond : Flags → Bool) (mode : BranchMode) (spec : Word) :
    Alike before scratch (s.branchWhen (cond s.flags) mode spec) (t.branchWhen (cond t.flags) mode spec) := by
  rw [h.flags]
  exact h.branchWhen (cond s.flags) mode spec

theorem branchTarget (h : Alike before scratch s t) (mode : BranchMode) (spec : Word) :
    branchTarget t mode spec = branchTarget s mode spec := by
  rw [branchTarget_eq_valueOf, branchTarget_eq_valueOf, h.valueOf]

end Alike

/-! ### Each instruction -/

section Instructions

variable {before : List Byte} {scratch : Prop} {s t : State}

theorem call_alike (h : Alike before scratch s t) (mode : BranchMode) (spec : Word) :
    Both (Alike before scratch) (execCall mode spec s) (execCall mode spec t) := by
  rw [execCall_eq, execCall_eq, h.branchTarget, h.sp, h.pc, h.mem]
  exact { h.enterS (branchAddrMode mode) spec (branchTarget s mode spec) with pc := rfl, sp := rfl, mem := rfl }

theorem retn_alike (h : Alike before scratch s t) (count : BitVec 3) :
    Both (Alike before scratch) (execRetn count s) (execRetn count t) := by
  rw [execRetn_eq, execRetn_eq, h.retSpDirection, h.sp, h.mem]
  exact { h with pc := rfl, sp := rfl, mem := rfl }

/-- MOVFLGA draws the same free value (log 5). -/
theorem movflga_alike (h : Alike before scratch s t) : Both (Alike before scratch) (execMovflga s) (execMovflga t) := by
  rw [execMovflga_eq, execMovflga_eq, h.movflgaUpper, h.flags, h.cfgMovflgaUpper, h.freeIndex]
  exact { h.writeU .a (s.movflgaUpper ++ s.flags.pack) s.flags with freeIndex := rfl }

theorem deci_alike (h : Alike before scratch s t) {mode : AddrMode} (spec : Word) (hw : mode.legalForAddress = true) :
    Both (Alike before scratch) (execDeci mode spec s) (execDeci mode spec t) := by
  obtain ⟨ea, ha⟩ := addressOf_of_legalForAddress s spec hw
  have ha' := (h.addressOf mode spec).trans ha
  obtain ⟨result, rest, hread⟩ :
      ∃ result rest, readDecimal s.cfg.continueOnInputExhaustion s.input = (result, rest) := ⟨_, _, rfl⟩
  have hread' : readDecimal t.cfg.continueOnInputExhaustion t.input = (result, rest) := by
    rw [h.continueOnInputExhaustion, h.input, hread]
  have hphase3 := h.enterS mode spec ea
  cases result with
  | error k => exact .of_eq (execDeci_of_error ha hread) (execDeci_of_error ha' hread') ((hphase3.setInput rest).raise k)
  | ok val =>
    refine .of_eq (execDeci_of_ok ha hread) (execDeci_of_ok ha' hread') ?_
    rw [h.flags, h.mem]
    exact { hphase3 with input := rfl, mem := rfl, flags := rfl }

theorem chari_alike (h : Alike before scratch s t) {mode : AddrMode} (spec : Word) (hw : mode.legalForAddress = true) :
    Both (Alike before scratch) (execChari mode spec s) (execChari mode spec t) := by
  obtain ⟨ea, ha⟩ := addressOf_of_legalForAddress s spec hw
  have ha' := (h.addressOf mode spec).trans ha
  have hphase3 := h.enterS mode spec ea
  cases hinput : s.input with
  | cons b rest =>
    exact .of_eq (execChari_of_cons ha hinput) (execChari_of_cons ha' (h.input.trans hinput))
      ((hphase3.setInput rest).storeByte ea b)
  | nil =>
    have hinput' := h.input.trans hinput
    have hcont' := h.continueOnInputExhaustion
    cases hcont : s.cfg.continueOnInputExhaustion with
    | true =>
      exact .of_eq (execChari_of_nil_goOn ha hinput hcont) (execChari_of_nil_goOn ha' hinput' (hcont'.trans hcont))
        (hphase3.storeByte ea 0)
    | false =>
      exact .of_eq (execChari_of_nil ha hinput hcont) (execChari_of_nil ha' hinput' (hcont'.trans hcont))
        (hphase3.raise .inputExhausted)

theorem stro_alike (h : Alike before scratch s t) {mode : AddrMode} (spec : Word) (hw : mode.legalForString = true) :
    Both (Alike before scratch) (execStro mode spec s) (execStro mode spec t) := by
  obtain ⟨ea, ha⟩ := addressOf_of_legalForString s spec hw
  have ha' := (h.addressOf mode spec).trans ha
  have hmem : scanString t.mem 65536 ea = scanString s.mem 65536 ea := by rw [h.mem]
  cases hscan : scanString s.mem 65536 ea with
  | some bytes =>
    exact .of_eq (execStro_of_some hw ha hscan) (execStro_of_some hw ha' (hmem.trans hscan))
      ((h.enterS mode spec ea).put bytes)
  | none =>
    rw [execStro_of_none hw ha hscan, execStro_of_none hw ha' (hmem.trans hscan)]
    rfl

theorem str_alike (h : Alike before scratch s t) (r : Reg) {mode : AddrMode} (spec : Word)
    (hw : mode.legalForAddress = true) :
    Both (Alike before scratch) (execStr r mode spec s) (execStr r mode spec t) := by
  obtain ⟨ea, ha⟩ := addressOf_of_legalForAddress s spec hw
  rw [execStr_eq r ha, execStr_eq r ((h.addressOf mode spec).trans ha), h.reg]
  exact (h.enterS mode spec ea).storeWord ea (s.reg r)

theorem stbyter_alike (h : Alike before scratch s t) (r : Reg) {mode : AddrMode} (spec : Word)
    (hw : mode.legalForAddress = true) :
    Both (Alike before scratch) (execStbyter r mode spec s) (execStbyter r mode spec t) := by
  obtain ⟨ea, ha⟩ := addressOf_of_legalForAddress s spec hw
  rw [execStbyter_eq r ha, execStbyter_eq r ((h.addressOf mode spec).trans ha), h.reg]
  exact (h.enterS mode spec ea).storeByte ea (hiByte (s.reg r))

/-- Every instruction does the same from states that agree in what it can read. -/
theorem exec_alike (h : Alike before scratch s t) (i : Instr) : Both (Alike before scratch) (exec i s) (exec i t) := by
  cases hw : i.wellFormed with
  | false => exact .of_eq (exec_of_illegal s hw) (exec_of_illegal t hw) (h.raise .decodeError)
  | true =>
    cases i with
    | stop => exact h.enterU.halt
    | rettr => exact h.enterU.raise .unsupportedInstruction
    | movflga => exact movflga_alike h
    | call mode spec => exact call_alike h mode spec
    | retn count => exact retn_alike h count
    | nopn _ => exact h.enterU
    | nop mode spec => exact .of_eq (if_pos hw) (if_pos hw) (h.enterValue mode spec)
    | deci mode spec => exact deci_alike h spec hw
    | stro mode spec => exact stro_alike h spec hw
    | chari mode spec => exact chari_alike h spec hw
    | str r mode spec => exact str_alike h r spec hw
    | stbyter r mode spec => exact stbyter_alike h r spec hw
    | deco mode spec =>
      rw [exec_deco, exec_deco, execDeco_eq, execDeco_eq, h.valueOf]; exact (h.enterS ..).put _
    | charo mode spec =>
      rw [exec_charo, exec_charo, execCharo_eq, execCharo_eq, h.valueOf]; exact (h.enterS ..).put _
    | br mode spec => exact h.branchOn (fun _ => true) mode spec
    | brle mode spec => exact h.branchOn (fun f => f.z || f.n) mode spec
    | brlt mode spec => exact h.branchOn (fun f => f.n) mode spec
    | breq mode spec => exact h.branchOn (fun f => f.z) mode spec
    | brne mode spec => exact h.branchOn (fun f => !f.z) mode spec
    | brge mode spec => exact h.branchOn (fun f => !f.n) mode spec
    | brgt mode spec => exact h.branchOn (fun f => !f.n && !f.z) mode spec
    | brv mode spec => exact h.branchOn (fun f => f.v) mode spec
    | brc mode spec => exact h.branchOn (fun f => f.c) mode spec
    | movspa => rw [exec_movspa, exec_movspa, execMovspa_eq, execMovspa_eq, h.sp, h.flags]; exact h.writeU ..
    | notr r => rw [exec_notr, exec_notr, execNotr_eq, execNotr_eq, h.reg, h.flags]; exact h.writeU ..
    | negr r => rw [exec_negr, exec_negr, execNegr_eq, execNegr_eq, h.reg, h.flags]; exact h.writeU ..
    | aslr r =>
      rw [exec_aslr, exec_aslr, execAslr_eq, execAslr_eq, h.reg, h.flags, h.shiftSetsNZ]; exact h.writeU ..
    | asrr r =>
      rw [exec_asrr, exec_asrr, execAsrr_eq, execAsrr_eq, h.reg, h.flags, h.shiftSetsNZ]; exact h.writeU ..
    | rolr r => rw [exec_rolr, exec_rolr, execRolr_eq, execRolr_eq, h.reg, h.flags]; exact h.writeU ..
    | rorr r => rw [exec_rorr, exec_rorr, execRorr_eq, execRorr_eq, h.reg, h.flags]; exact h.writeU ..
    | addr r mode spec =>
      rw [exec_addr, exec_addr, execAddr_eq, execAddr_eq, h.reg, h.valueOf]; exact h.writeS ..
    | subr r mode spec =>
      rw [exec_subr, exec_subr, execSubr_eq, execSubr_eq, h.reg, h.valueOf]; exact h.writeS ..
    | andr r mode spec =>
      rw [exec_andr, exec_andr, execAndr_eq, execAndr_eq, h.reg, h.flags, h.valueOf]; exact h.writeS ..
    | orr r mode spec =>
      rw [exec_orr, exec_orr, execOrr_eq, execOrr_eq, h.reg, h.flags, h.valueOf]; exact h.writeS ..
    | cpr r mode spec =>
      rw [exec_cpr, exec_cpr, execCpr_eq, execCpr_eq, h.reg, h.valueOf]; exact (h.enterValue mode spec).setFlags _
    | ldr r mode spec =>
      rw [exec_ldr, exec_ldr, execLdr_eq, execLdr_eq, h.flags, h.loadSetsNZ, h.valueOf]; exact h.writeS ..
    | ldbyter r mode spec =>
      rw [exec_ldbyter, exec_ldbyter, execLdbyter_eq, execLdbyter_eq, h.flags, h.loadSetsNZ, h.valueOf]; exact h.writeS ..
    | addsp mode spec =>
      rw [exec_addsp, exec_addsp, execAddsp_eq, execAddsp_eq, h.sp, h.valueOf]; exact h.writeSp ..
    | subsp mode spec =>
      rw [exec_subsp, exec_subsp, execSubsp_eq, execSubsp_eq, h.sp, h.valueOf]; exact h.writeSp ..

end Instructions

/-! ### The step -/

/-- The decoder does not read whether tracing is enabled. -/
theorem decode_untraced (cfg : Config) (bytes : List Byte) :
    decode { cfg with traceEnabled := false } bytes = decode cfg bytes := rfl

section Step

variable {before : List Byte} {scratch : Prop} {s t : State}

theorem Alike.decode_fetchBytes (h : Alike before scratch s t) :
    decode t.cfg (fetchBytes t) = decode s.cfg (fetchBytes s) := by
  rw [← decode_untraced t.cfg, ← decode_untraced s.cfg, h.cfg, fetchBytes, fetchBytes, h.mem, h.pc]

/-- Two steps from states that agree lead to outcomes in `R`, if the states themselves are in `R`, the error of an unknown
opcode leads to `R`, and so does the trace after one instruction from both. -/
theorem step_both {R : State → State → Prop} (h : Alike before scratch s t) (hself : R s t)
    (herr : R (s.fetch.raise .internalError) (t.fetch.raise .internalError))
    (hexec : ∀ i u v, exec i s.fetch = .next u → exec i t.fetch = .next v → Alike before scratch u v →
      R (u.traced i) (v.traced i)) : Both R (step s) (step t) := by
  cases hrun : s.run with
  | halted => exact .of_eq (step_of_halted hrun) (step_of_halted (h.run.trans hrun)) hself
  | running =>
    have hrun' := h.run.trans hrun
    cases hd : decode s.cfg (fetchBytes s) with
    | error e => exact .of_eq (step_of_reject hrun hd) (step_of_reject hrun' (h.decode_fetchBytes.trans hd)) herr
    | ok decoded =>
      obtain ⟨i, rest⟩ := decoded
      have hboth := exec_alike h.fetch i
      rw [step_of_decode hrun hd, step_of_decode hrun' (h.decode_fetchBytes.trans hd)]
      cases hs : exec i s.fetch <;> cases ht : exec i t.fetch <;> rw [hs, ht] at hboth
      case next.next u v => exact hexec i u v hs ht hboth
      all_goals exact hboth

end Step

/-! ### The three comparisons -/

/-- Forgetting the scratch, IR and the trace forgets the line a step emits. -/
theorem forgetScratch_traced (s : State) (i : Instr) : (s.traced i).forgetScratch = s.forgetScratch := by
  obtain ⟨line, htraced⟩ := traced_eq s i
  rw [htraced]
  rfl

/-- Forgetting the trace forgets the line a step emits. -/
theorem forgetTrace_traced (s : State) (i : Instr) : (s.traced i).forgetTrace = s.forgetTrace := by
  obtain ⟨line, htraced⟩ := traced_eq s i
  rw [htraced]
  rfl

/-- A line does not show Out (R288). -/
theorem prependOutput_traced (before : List Byte) (s : State) (i : Instr) :
    (s.prependOutput before).traced i = (s.traced i).prependOutput before :=
  (apply_ite (State.prependOutput before) ((s.cfg.traceEnabled && s.completed) = true) (s.emitLine (s.traceLine i)) s).symm

section Comparisons

variable {before : List Byte} {s t : State}

/-- States that are the same with IR, the scratch and the trace forgotten, and with whether tracing is enabled forgotten too,
agree in what an instruction can read. -/
theorem alike_of_forget (h : s.forgetScratch.forgetTrace = t.forgetScratch.forgetTrace) : Alike [] False s t where
  a := (congrArg State.a h.symm :)
  x := (congrArg State.x h.symm :)
  pc := (congrArg State.pc h.symm :)
  sp := (congrArg State.sp h.symm :)
  flags := (congrArg State.flags h.symm :)
  run := (congrArg State.run h.symm :)
  err := (congrArg State.err h.symm :)
  mem := (congrArg State.mem h.symm :)
  input := (congrArg State.input h.symm :)
  output := (congrArg State.output h.symm :)
  cfg := (congrArg State.cfg h.symm :)
  freeIndex := (congrArg State.freeIndex h.symm :)
  ir := False.elim
  sameScratch := False.elim

/-- States that differ in the trace alone and in whether it is enabled agree in IR and the scratch too. -/
theorem alike_of_forgetTrace (h : s.forgetTrace = t.forgetTrace) : Alike [] True s t :=
  { alike_of_forget (congrArg State.forgetScratch h) with
    ir := fun _ => (congrArg State.ir h.symm :)
    sameScratch := fun _ =>
      ⟨(congrArg State.spec h.symm :), (congrArg State.mode h.symm :), (congrArg State.operand h.symm :)⟩ }

theorem forgetScratch_of_alike (h : Alike [] False s t) (hcfg : t.cfg = s.cfg) : s.forgetScratch = t.forgetScratch :=
  ((State.mk.injEq ..).mpr ⟨h.a, h.x, h.pc, h.sp, rfl, h.flags, h.run, h.err, rfl, rfl, rfl, h.mem, h.input, h.output, rfl,
    hcfg, h.freeIndex⟩ : t.forgetScratch = s.forgetScratch).symm

theorem forgetTrace_of_alike (h : Alike [] True s t) : s.forgetTrace = t.forgetTrace := by
  obtain ⟨hspec, hmode, hoperand⟩ := h.sameScratch trivial
  exact ((State.mk.injEq ..).mpr ⟨h.a, h.x, h.pc, h.sp, h.ir trivial, h.flags, h.run, h.err, hspec, hmode, hoperand, h.mem,
    h.input, h.output, rfl, h.cfg, h.freeIndex⟩ : t.forgetTrace = s.forgetTrace).symm

/-- States that differ in the bytes already written agree in everything but Out. -/
theorem alike_prependOutput (before : List Byte) (s : State) : Alike before True s (s.prependOutput before) where
  a := rfl
  x := rfl
  pc := rfl
  sp := rfl
  flags := rfl
  run := rfl
  err := rfl
  mem := rfl
  input := rfl
  output := rfl
  cfg := rfl
  freeIndex := rfl
  ir _ := rfl
  sameScratch _ := ⟨rfl, rfl, rfl⟩

theorem eq_prependOutput_of_alike (h : Alike before True s t) (htrace : t.trace = s.trace) (hcfg : t.cfg = s.cfg) :
    t = s.prependOutput before := by
  obtain ⟨hspec, hmode, hoperand⟩ := h.sameScratch trivial
  exact (State.mk.injEq ..).mpr ⟨h.a, h.x, h.pc, h.sp, h.ir trivial, h.flags, h.run, h.err, hspec, hmode, hoperand, h.mem,
    h.input, h.output, htrace, hcfg, h.freeIndex⟩

end Comparisons

/-- Settles O28: every format S instruction writes the whole scratch before it reads it. -/
theorem scratchCarriesNothingOver : Obligations.ScratchCarriesNothingOver := by
  intro s t h
  have halike := alike_of_forget (congrArg State.forgetTrace h)
  have hcfg : t.cfg = s.cfg := (congrArg State.cfg h.symm :)
  refine Both.mapNext_eq (step_both halike h ?reject fun i u v hu hv huv => ?exec)
  case reject => exact forgetScratch_of_alike (halike.fetch.raise .internalError) hcfg
  case exec =>
    have hcfg' : v.cfg = u.cfg := (exec_keeps hv).cfg.trans (hcfg.trans (exec_keeps hu).cfg.symm)
    rw [forgetScratch_traced, forgetScratch_traced]
    exact forgetScratch_of_alike huv hcfg'

/-- Settles O29: no instruction reads the trace or whether it is enabled. -/
theorem traceChangesNothingElse : Obligations.TraceChangesNothingElse := by
  intro s t h
  have halike := alike_of_forgetTrace h
  refine Both.mapNext_eq (step_both halike h ?reject fun i u v _ _ huv => ?exec)
  case reject => exact forgetTrace_of_alike (halike.fetch.raise .internalError)
  case exec =>
    rw [forgetTrace_traced, forgetTrace_traced]
    exact forgetTrace_of_alike huv

/-- Settles O30: an instruction appends to Out and reads nothing of it. -/
theorem outputIsNeverRead : Obligations.OutputIsNeverRead := by
  intro s before
  refine Both.eq_mapNext (step_both (alike_prependOutput before s) rfl rfl fun i u v hu hv huv => ?exec)
  have htrace : v.trace = u.trace := (exec_keeps hv).trace.trans (exec_keeps hu).trace.symm
  have hcfg : v.cfg = u.cfg := (exec_keeps hv).cfg.trans (exec_keeps hu).cfg.symm
  rw [eq_prependOutput_of_alike huv htrace hcfg, prependOutput_traced]

end Sys2Proof.Machine
end
